-- ==== Sys2Proof/Word.lean ====
section
/-! DEFINITION. The word types of the DFB: the byte of every stream (spec 00_scope.md R8) and the
16-bit size or length field of a configuration register or a descriptor (10_state.md R21,
20_memory.md R52). Byte sequences are lists, oldest byte first (00_scope.md R11). -/

namespace Sys2Proof

/-- One stream element: an unsigned 8-bit value (R8). -/
abbrev Byte := BitVec 8

/-- A 16-bit size or length field (R21, R52). Lengths are computed exactly over `Nat` (R9); a
`Half` is only the stored or transmitted form. -/
abbrev Half := BitVec 16

end Sys2Proof
end

