-- ==== Sys2Proof/Syntax.lean ====
section
/-! DEFINITION. The commands of the DFB command set, version 1 (00_scope.md R2), one constructor of
`Instr` for each row of spec/opcode_table.json, with the operands of 30_encoding.md R84; the command
interfaces (R80) and the names of the six assigned opcodes (R83). -/

namespace Sys2Proof

/-- The three command interfaces of R80, each served by the agent of the same name (R3, R232). -/
inductive Iface
  /-- `CMD_CTRL`, served by the CTRL agent. -/
  | ctrl
  /-- `CMD_RX`, served by the RX agent, the Deframer. -/
  | rx
  /-- `CMD_TX`, served by the TX agent, the Framer. -/
  | tx
  deriving DecidableEq, Repr

/-- The six assigned opcodes (R83), by name. Their byte values are `Opcode.byte`. -/
inductive Opcode
  | cfgLoad
  | rxIngest
  | rxReset
  | txFrameSelf
  | txFramePair
  | pktSplit
  deriving DecidableEq, Repr

/-- The commands, with the operands their descriptors carry (R84, R85). A byte-sequence operand's
length field is its length, so it is not a separate operand. -/
inductive Instr
  /-- CFG.LOAD P, H, D, S, I (format F-CFG): the five proposed register values. -/
  | cfgLoad (psz hsz dsz : Half) (sent idle : Byte)
  /-- RX.INGEST s (format F-CHUNK). -/
  | rxIngest (chunk : List Byte)
  /-- RX.RESET (format F-NONE). -/
  | rxReset
  /-- TX.FRAME.SELF h, d (format F-HD). -/
  | txFrameSelf (hdr dat : List Byte)
  /-- TX.FRAME.PAIR h, d (format F-HD). -/
  | txFramePair (hdr dat : List Byte)
  /-- PKT.SPLIT b (format F-BODY). -/
  | pktSplit (body : List Byte)
  deriving DecidableEq, Repr

end Sys2Proof
end

