-- ==== Sys2Proof/WellFormed.lean ====
section
/-! DEFINITION. Which commands a descriptor can spell: every byte-sequence operand's length fits the
16-bit length field of its format (30_encoding.md R84, R85). Agreement with the configuration is not
part of this: the command's own rule checks it (R85). -/

namespace Sys2Proof

/-- The length fits an LE16 length field, 0 to 65535 (R85). -/
def fitsLengthField (s : List Byte) : Bool := decide (s.length < 65536)

/-- The command has a descriptor (R84). -/
def Instr.wellFormed : Instr → Bool
  | .cfgLoad _ _ _ _ _ => true
  | .rxIngest chunk => fitsLengthField chunk
  | .rxReset => true
  | .txFrameSelf hdr dat => fitsLengthField hdr && fitsLengthField dat
  | .txFramePair hdr dat => fitsLengthField hdr && fitsLengthField dat
  | .pktSplit body => fitsLengthField body

end Sys2Proof
end

