-- ==== Sys2Proof/Decode.lean ====
section
/-! DEFINITION. Descriptors and commands (30_encoding.md): 16-bit little-endian fields (R52, R85), the
opcode byte and its map (R82, R83), the length rule (R97), the decoder with its refusals by name
(R92, R93), the encoder of the same formats (R84, R95), and the descriptor that a word of
spec/opcode_table.json stands for. -/

namespace Sys2Proof

/-! ## 16-bit fields (R52) -/

/-- `LE16(v) = [v[7:0], v[15:8]]` (R52). -/
def le16 (v : Half) : List Byte := [v.extractLsb' 0 8, v.extractLsb' 8 8]

/-- `LE16` of a length (R84, R88). A length over 65535, which no descriptor has, keeps its low 16 bits:
DESIGN CHOICE, unsafe, log entry 10. -/
def le16OfNat (n : Nat) : List Byte := le16 (BitVec.ofNat 16 n)

/-- The field whose bytes are `lo` and then `hi`: `zext_16(lo) + 256 * zext_16(hi)` (R85). -/
def readLe16 (lo hi : Byte) : Half := lo.setWidth 16 + 256 * hi.setWidth 16

/-! ## The opcode byte (R82, R83) -/

/-- `UNIT`, bits [7:4] of the opcode byte (R82). -/
def unitField (opc : Byte) : Nat := (opc.extractLsb' 4 4).toNat

/-- `FUNC`, bits [3:0] of the opcode byte (R82). -/
def funcField (opc : Byte) : Nat := (opc.extractLsb' 0 4).toNat

/-- The byte of an assigned opcode (R83). -/
def Opcode.byte : Opcode → Byte
  | .cfgLoad => 0x01
  | .rxIngest => 0x10
  | .rxReset => 0x11
  | .txFrameSelf => 0x20
  | .txFramePair => 0x21
  | .pktSplit => 0x30

/-- The command an opcode byte selects: FUNC within UNIT (R82, R83). Every other value, the reserved
UNIT values 0x4 to 0xF among them, spells no command (R92). -/
def Opcode.ofByte? (opc : Byte) : Option Opcode :=
  match unitField opc, funcField opc with
  | 0x0, 0x1 => some .cfgLoad
  | 0x1, 0x0 => some .rxIngest
  | 0x1, 0x1 => some .rxReset
  | 0x2, 0x0 => some .txFrameSelf
  | 0x2, 0x1 => some .txFramePair
  | 0x3, 0x0 => some .pktSplit
  | _, _ => none

/-- Which interface serves which command: the yes and no columns of R83. -/
def Opcode.servedOn : Opcode → Iface → Bool
  | .cfgLoad, i => i == .ctrl
  | .rxIngest, i => i == .rx
  | .rxReset, i => i == .rx
  | .txFrameSelf, i => i == .tx
  | .txFramePair, i => i == .tx
  | .pktSplit, i => i == .rx || i == .tx

/-- The opcode of a command. -/
def Instr.opcode : Instr → Opcode
  | .cfgLoad _ _ _ _ _ => .cfgLoad
  | .rxIngest _ => .rxIngest
  | .rxReset => .rxReset
  | .txFrameSelf _ _ => .txFrameSelf
  | .txFramePair _ _ => .txFramePair
  | .pktSplit _ => .pktSplit

/-! ## The length rule (R97) -/

/-- The LE16 at an offset of a descriptor, `none` where the descriptor ends first (R93). -/
def lengthFieldAt (d : List Byte) (o : Nat) : Option Nat :=
  match d[o]?, d[o + 1]? with
  | some lo, some hi => some (readLe16 lo hi).toNat
  | _, _ => none

/-- The length a descriptor must have, told from its first bytes alone (R97); `none` where there is no
assigned opcode or a length field cannot be read. -/
def descriptorLength (c : List Byte) : Option Nat :=
  match c with
  | [] => none
  | opc :: _ =>
    match Opcode.ofByte? opc with
    | none => none
    | some .rxReset => some 1
    | some .cfgLoad => some 9
    | some .rxIngest => (lengthFieldAt c 1).map (3 + ·)
    | some .pktSplit => (lengthFieldAt c 1).map (3 + ·)
    | some .txFrameSelf =>
      (lengthFieldAt c 1).bind fun hl => (lengthFieldAt c (3 + hl)).map (5 + hl + ·)
    | some .txFramePair =>
      (lengthFieldAt c 1).bind fun hl => (lengthFieldAt c (3 + hl)).map (5 + hl + ·)

/-! ## The decoder -/

/-- Why a descriptor spells no command. Each is reported as ILLEGAL_COMMAND (R225). -/
inductive DecodeError
  /-- The descriptor is empty: no opcode byte to report (R93). -/
  | empty
  /-- The opcode byte is not one of the six of R83 (R92). -/
  | unassigned (opc : Byte)
  /-- The length differs from the length rule's, or a length field cannot be read (R93). -/
  | malformed (opc : Byte)
  deriving DecidableEq, Repr

/-- The opcode byte ILLEGAL_COMMAND reports, if there is one (R93, R225). -/
def DecodeError.opcodeInfo : DecodeError → Option Byte
  | .empty => none
  | .unassigned opc => some opc
  | .malformed opc => some opc

/-- Read a length-prefixed byte sequence: an LE16 `n`, then `n` bytes copied unchanged (R84, R85).
The answer holds the sequence and what follows it. -/
def takeCounted : List Byte → Option (List Byte × List Byte)
  | lo :: hi :: rest =>
    if (readLe16 lo hi).toNat ≤ rest.length then
      some (rest.take (readLe16 lo hi).toNat, rest.drop (readLe16 lo hi).toNat)
    else none
  | _ => none

/-- Operands of format F-CFG (R84). -/
def decodeFCfg : List Byte → Option Instr
  | [p0, p1, h0, h1, d0, d1, sent, idle] =>
    some (.cfgLoad (readLe16 p0 p1) (readLe16 h0 h1) (readLe16 d0 d1) sent idle)
  | _ => none

/-- The operand of formats F-CHUNK and F-BODY: one counted sequence and nothing after it (R84). -/
def decodeOneSequence (rest : List Byte) : Option (List Byte) :=
  match takeCounted rest with
  | some (s, []) => some s
  | _ => none

/-- The operands of format F-HD: two counted sequences and nothing after them (R84). -/
def decodeTwoSequences (rest : List Byte) : Option (List Byte × List Byte) :=
  match takeCounted rest with
  | some (h, rest') => (decodeOneSequence rest').map fun d => (h, d)
  | none => none

/-- The operands that follow an assigned opcode, in the format R83 gives it. -/
def decodeOperands (k : Opcode) (rest : List Byte) : Option Instr :=
  match k with
  | .cfgLoad => decodeFCfg rest
  | .rxIngest => (decodeOneSequence rest).map .rxIngest
  | .rxReset => if rest = [] then some .rxReset else none
  | .txFrameSelf => (decodeTwoSequences rest).map fun hd => .txFrameSelf hd.1 hd.2
  | .txFramePair => (decodeTwoSequences rest).map fun hd => .txFramePair hd.1 hd.2
  | .pktSplit => (decodeOneSequence rest).map .pktSplit

/-- Decode a descriptor, in the order of R229: empty, unassigned opcode, wrong length. (The check of
the interface, third in R229, is the command's own: its report is the same as that of a wrong length. DEDUCED, safe:
log entry 14.) -/
def decode : List Byte → Except DecodeError Instr
  | [] => .error .empty
  | opc :: rest =>
    match Opcode.ofByte? opc with
    | none => .error (.unassigned opc)
    | some k =>
      match decodeOperands k rest with
      | none => .error (.malformed opc)
      | some i => .ok i

/-! ## The encoder -/

/-- A length-prefixed byte sequence: `LE16(len(s)) ++ s` (R84, R95). -/
def counted (s : List Byte) : List Byte := le16OfNat s.length ++ s

/-- The descriptor of a command: the last column of R95's table. -/
def encode : Instr → List Byte
  | .cfgLoad psz hsz dsz sent idle =>
    Opcode.cfgLoad.byte :: (le16 psz ++ le16 hsz ++ le16 dsz ++ [sent, idle])
  | .rxIngest chunk => Opcode.rxIngest.byte :: counted chunk
  | .rxReset => [Opcode.rxReset.byte]
  | .txFrameSelf hdr dat => Opcode.txFrameSelf.byte :: (counted hdr ++ counted dat)
  | .txFramePair hdr dat => Opcode.txFramePair.byte :: (counted hdr ++ counted dat)
  | .pktSplit body => Opcode.pktSplit.byte :: counted body

/-! ## The descriptor of a table word

A row of spec/opcode_table.json gives bits to the opcode byte only; the operand bytes are then zeros,
as many of them as the length rule asks for (R97). DESIGN CHOICE, safe: log entry 8. -/

/-- The `n` lowest bytes of a word, the first byte in bits 7..0. -/
def wordBytes : Nat → Nat → List Byte
  | 0, _ => []
  | n + 1, w => BitVec.ofNat 8 w :: wordBytes n (w / 256)

/-- A length field of a descriptor that goes on with zeros. -/
def zeroExtendedField (c : List Byte) (o : Nat) : Nat :=
  (readLe16 (c.getD o 0) (c.getD (o + 1) 0)).toNat

/-- The length rule R97 for a descriptor that goes on with zeros; a descriptor with no assigned opcode
has no operands. -/
def zeroExtendedLength (c : List Byte) : Nat :=
  match c with
  | [] => 0
  | opc :: _ =>
    match Opcode.ofByte? opc with
    | none => c.length
    | some .rxReset => 1
    | some .cfgLoad => 9
    | some .rxIngest => 3 + zeroExtendedField c 1
    | some .pktSplit => 3 + zeroExtendedField c 1
    | some .txFrameSelf =>
      5 + zeroExtendedField c 1 + zeroExtendedField c (3 + zeroExtendedField c 1)
    | some .txFramePair =>
      5 + zeroExtendedField c 1 + zeroExtendedField c (3 + zeroExtendedField c 1)

/-- The descriptor whose first `nbits` bits are `w` (bit 0 the lowest of the first byte) and whose
remaining bytes, up to the length R97 asks for, are zeros. -/
def tableDescriptor (nbits w : Nat) : List Byte :=
  let c := wordBytes ((nbits + 7) / 8) (w % 2 ^ nbits)
  c ++ List.replicate (zeroExtendedLength c - c.length) 0

/-- The command the decoder reads from a table word, `none` where it refuses. -/
def decodeTableWord (nbits w : Nat) : Option Instr :=
  match decode (tableDescriptor nbits w) with
  | .ok i => some i
  | .error _ => none

end Sys2Proof
end

