-- ==== Sys2Proof/Config.lean ====
section
/-! DEFINITION. What is fixed for one DFB or one session: the PacketFormat record held by the
configuration registers (10_state.md R21, 40_packet_model.md R110), the two OPEN implementation
parameters (00_scope.md R6), the fixed step 2.b policy (92_eei_decisions.md D6), and the free
values: constants without a body, of which nothing can be proved but what their use guarantees. -/

namespace Sys2Proof

/-- The PacketFormat: registers CR0 to CR4 with the widths of R21. -/
structure PacketFormat where
  /-- CR0 `packet_size`, bits [15:0]. -/
  packetSize : Half
  /-- CR1 `header_size`, bits [15:0]. -/
  headerSize : Half
  /-- CR2 `data_size`, bits [15:0]. -/
  dataSize : Half
  /-- CR3 `sentinel_byte`, bits [7:0]. -/
  sentinelByte : Byte
  /-- CR4 `idle_byte`, bits [7:0]. -/
  idleByte : Byte
  deriving DecidableEq, Repr

/-- `cfg.P` of R11, as the natural number every length computation uses (R9). -/
abbrev PacketFormat.P (c : PacketFormat) : Nat := c.packetSize.toNat
/-- `cfg.H` of R11. -/
abbrev PacketFormat.H (c : PacketFormat) : Nat := c.headerSize.toNat
/-- `cfg.D` of R11. -/
abbrev PacketFormat.D (c : PacketFormat) : Nat := c.dataSize.toNat
/-- `cfg.S` of R11. -/
abbrev PacketFormat.S (c : PacketFormat) : Byte := c.sentinelByte
/-- `cfg.I` of R11. -/
abbrev PacketFormat.I (c : PacketFormat) : Byte := c.idleByte

/-- The default PacketFormat (R6, R114), a value built afresh at every use. -/
def PacketFormat.default : PacketFormat :=
  { packetSize := 64, headerSize := 16, dataSize := 48, sentinelByte := 0x00, idleByte := 0xFF }

/-- The OPEN parameters of an implementation (R6), arguments of the machine: no command writes them. -/
structure Params where
  /-- `PMAX`, the largest `packet_size` CFG.LOAD accepts. -/
  pMax : Nat
  /-- `CHUNK_MAX`, the largest chunk RX.INGEST accepts. -/
  chunkMax : Nat
  deriving DecidableEq, Repr

/-- The ranges R6 gives the OPEN parameters. -/
abbrev Params.Legal (p : Params) : Prop :=
  (64 ≤ p.pMax ∧ p.pMax ≤ 65533) ∧ (1 ≤ p.chunkMax ∧ p.chunkMax ≤ 65535)

/-- The least residual-buffer capacity an implementation may have: `PMAX + 1 + CHUNK_MAX` (R6, R26). -/
abbrev Params.rbufCap (p : Params) : Nat := p.pMax + 1 + p.chunkMax

/-- What step 2.b discards when `rbuf` holds no sentinel (R6, R174, 93_implementation_defined.md I1). -/
inductive NoSentPolicy
  /-- Clear the whole buffer: the policy this spec fixes (D6). -/
  | discardAll
  /-- Retain the last `packet_size` bytes: the source's other variant, used only to state R182. -/
  | retainTail
  deriving DecidableEq, Repr

/-- `NOSENT_POLICY`, fixed to `DISCARD_ALL` by the spec's own choice (R6, R174, D6). Log entry 12. -/
def Config.noSentPolicy : NoSentPolicy := .discardAll

/-- FREE VALUE behind PMAX of the machine at reset (R6: OPEN). DESIGN CHOICE, safe: log entry 1. -/
opaque Config.pMaxSeed : Nat

/-- FREE VALUE behind CHUNK_MAX of the machine at reset (R6: OPEN). DESIGN CHOICE, safe: log entry 1. -/
opaque Config.chunkMaxSeed : Nat

/-- The parameters of the machine at reset: every legal pair is possible, none is known (R6). -/
def Config.params : Params :=
  { pMax := Config.pMaxSeed % (65533 - 64 + 1) + 64
    chunkMax := Config.chunkMaxSeed % 65535 + 1 }

/-- FREE VALUE: the host's answer to the n-th TX_OUT write, where the state supplies none (R87, D24:
each answer is an independent draw). DESIGN CHOICE, safe: log entry 3. -/
opaque Config.writeAnswer : Nat → Bool

end Sys2Proof
end

