-- ==== Sys2Proof/Machine/State.lean ====
section
/-! DEFINITION. The state of one DFB instance (10_state.md R32: `cfg` and `rbuf`), the parameters of
the instance (00_scope.md R6), and the model's own record of the host around it: what the host has
presented and not yet been served, which agent steps next, and what the DFB has given back. The two
parts are kept apart by the docstrings; INVENTORY.md lists every field. -/

namespace Sys2Proof.Machine

/-- What happens next at the DFB: one agent takes its turn, or the host applies hardware reset. A list
of turns is one interleaving of the agents' atomic steps (20_memory.md R53). -/
inductive Turn
  /-- The agent of this interface takes its next command (R81). -/
  | serve (i : Iface)
  /-- Hardware reset, one atomic event (70_reset_and_hazards.md R250, R252). -/
  | hardwareReset
  deriving DecidableEq, Repr

/-- One transaction the DFB gives to the host (30_encoding.md R86, R87, R88). -/
inductive Event
  /-- An RX_OUT transaction: one packet (R86). -/
  | rxOut (header data : List Byte)
  /-- A TX_OUT transaction: one write buffer, and the host's answer to it (R87). -/
  | txOut (buffer : List Byte) (answer : Bool)
  /-- The response descriptor of a command, on the interface the command came by (R81, R88). -/
  | response (on : Iface) (bytes : List Byte)
  deriving DecidableEq, Repr

/-- The state of the machine. Plain data. -/
structure State where
  /-- DFB state: the configuration registers CR0 to CR4 (R21, R32). -/
  cfg : PacketFormat
  /-- DFB state: the residual buffer, oldest byte first (R24, R32). -/
  rbuf : List Byte
  /-- MODEL: the implementation's parameters PMAX and CHUNK_MAX, arguments of the step (R6, R32);
  no step changes them. DESIGN CHOICE, safe: log entry 1. -/
  params : Params
  /-- MODEL: descriptors presented on `CMD_CTRL` and not yet taken, in arrival order (R81).
  DESIGN CHOICE, safe but for its reset value: log entry 2. -/
  cmdCtrl : List (List Byte)
  /-- MODEL: descriptors presented on `CMD_RX` and not yet taken, in arrival order (R81).
  DESIGN CHOICE, safe but for its reset value: log entry 2. -/
  cmdRx : List (List Byte)
  /-- MODEL: descriptors presented on `CMD_TX` and not yet taken, in arrival order (R81).
  DESIGN CHOICE, safe but for its reset value: log entry 2. -/
  cmdTx : List (List Byte)
  /-- MODEL: the interleaving still to come, next turn first (R53). DESIGN CHOICE, safe but
  for its reset value: log entry 2. -/
  schedule : List Turn
  /-- MODEL: the interface by which the command being executed came; a step sets it before it runs a
  command, and the command's response goes there (R81). DESIGN CHOICE, unsafe in its reset value alone:
  log entry 4. -/
  active : Iface
  /-- MODEL: the host's answers to the next TX_OUT writes, where they are given; beyond them the answer
  is the free value `Config.writeAnswer` (R87). DESIGN CHOICE, safe: log entry 3. -/
  answers : List Bool
  /-- MODEL: every transaction the DFB has given to the host, oldest first (R261).
  DESIGN CHOICE, safe: log entry 5. -/
  trace : List Event
  deriving DecidableEq, Repr

/-- Reasons for the machine to stop with a fault: there are none. The DFB never faults or sticks
(93_implementation_defined.md: `fault` and `stuck` are not used), and every error of a command is a
response after which the machine goes on (60_exceptions.md R220, R231). A closed type with no
constructor is safe: no step can claim to have stopped. -/
inductive Fault
  deriving DecidableEq, Repr

/-- Reasons for an instruction to have no meaning. No arm of `exec` uses one: every command of the
opcode table has its meaning. -/
inductive Refusal
  /-- Raised by no one in this model; it would be raised by an arm of `exec` whose instruction had no
  meaning yet. Safe: nothing is proved of an instruction that stops. -/
  | notModelled (mnemonic : String)
  deriving DecidableEq, Repr

/-- The machine after hardware reset, for given parameters: the default PacketFormat and an empty residual
buffer (R250). The model's own fields begin empty, with no descriptor waiting, no turn to come and nothing
delivered: DESIGN CHOICE, log entries 2, 3 and 5; `active` begins at ctrl: DESIGN CHOICE, log entry 4. -/
def State.resetWith (p : Params) : State :=
  { cfg := PacketFormat.default
    rbuf := []
    params := p
    cmdCtrl := []
    cmdRx := []
    cmdTx := []
    schedule := []
    active := .ctrl
    answers := []
    trace := [] }

/-- The machine right after reset, its parameters left open (R6, R250). -/
def State.reset : State := State.resetWith Config.params

end Sys2Proof.Machine
end

