-- ==== Sys2Proof/Machine/Flags.lean ====
section
/-! DEFINITION. The DFB has no flags (10_state.md R23): a command's outcome is the status code of its
response. This file holds the status codes (60_exceptions.md R221), the errors with the information
each records, their response descriptors (30_encoding.md R88), and the WOK byte (R88, 41_framer.md R143). -/

namespace Sys2Proof.Machine

/-- The status byte of success (R221). -/
def statusOk : Byte := 0x00

/-- The errors of R221, each with what it records. -/
inductive CommandError
  /-- INVALID_PACKET_SIZE of a framing command: records `HL` and `DL` (R223, R142). -/
  | invalidFrameSize (hl dl : Nat)
  /-- INVALID_PACKET_SIZE of PKT.SPLIT: records `BL` (R223, R113). -/
  | invalidBodySize (bl : Nat)
  /-- INVALID_CONFIG of CFG.LOAD: records nothing (R224). -/
  | invalidConfig
  /-- ILLEGAL_COMMAND: records the opcode byte, nothing for an empty descriptor (R225, R93). -/
  | illegalCommand (opc : Option Byte)
  /-- CHUNK_OVERFLOW of RX.INGEST: records `L` (R226). -/
  | chunkOverflow (l : Nat)
  deriving DecidableEq, Repr

/-- The status code of an error (R221). -/
def CommandError.code : CommandError → Byte
  | .invalidFrameSize _ _ => 0x01
  | .invalidBodySize _ => 0x01
  | .invalidConfig => 0x02
  | .illegalCommand _ => 0x03
  | .chunkOverflow _ => 0x04

/-- The recorded information: the response bytes after the code (R88, R221). -/
def CommandError.info : CommandError → List Byte
  | .invalidFrameSize hl dl => le16OfNat hl ++ le16OfNat dl
  | .invalidBodySize bl => le16OfNat bl
  | .invalidConfig => []
  | .illegalCommand opc => opc.toList
  | .chunkOverflow l => le16OfNat l

/-- The response descriptor of an error (R88). -/
def CommandError.response (e : CommandError) : List Byte := e.code :: e.info

/-- `zext_8` of a write answer (R140). -/
def answerBit (ok : Bool) : Byte := (BitVec.ofBool ok).setWidth 8

/-- WOK of TX.FRAME.SELF: bit 0 is write 1's answer, the other bits are 0 (R88, R140). -/
def wokSelf (ok1 : Bool) : Byte := answerBit ok1

/-- WOK of TX.FRAME.PAIR: bit i is write i+1's answer, bits 7:3 are 0 (R88, R141). -/
def wokPair (ok1 ok2 ok3 : Bool) : Byte :=
  answerBit ok1 ||| answerBit ok2 <<< 1 ||| answerBit ok3 <<< 2

end Sys2Proof.Machine
end

