-- ==== Sys2Proof/Machine/Operands.lean ====
section
/-! DEFINITION. How operands and windows are cut and checked: slices and the search of 00_scope.md R11,
the split of a packet body (40_packet_model.md R113, 42_deframer.md R176), the frame a packet makes
(30_encoding.md R89), and the operand checks of CFG.LOAD and of the framing commands (R112, R142). -/

namespace Sys2Proof.Machine

/-- `s[a:b]`, the half-open slice (R11). R11 gives no meaning where `b` is past the end of `s` or below
`a`: there the slice is cut at the end, and is empty when it would run backwards. DESIGN CHOICE, unsafe: log
entry 18. -/
def slice (s : List Byte) (a b : Nat) : List Byte := (s.drop a).take (b - a)

/-- `firstIndex(s, v)`: the smallest i with `s[i] == v`, or NONE (R11). -/
def firstIndex (s : List Byte) (v : Byte) : Option Nat := s.findIdx? (· == v)

/-- The header of a body: `BODY[0 : H]` (R113). -/
def bodyHeader (c : PacketFormat) (body : List Byte) : List Byte := slice body 0 c.H

/-- The data of a body: `BODY[H : P]` (R113). -/
def bodyData (c : PacketFormat) (body : List Byte) : List Byte := slice body c.H c.P

/-- The self-delimited frame `[S] ++ header ++ data ++ [S]` (R89, R140). -/
def frame (c : PacketFormat) (hdr dat : List Byte) : List Byte := [c.S] ++ hdr ++ dat ++ [c.S]

/-- The size check of the framing commands: each length is checked separately (R140, R142). -/
def packetSizesMatch (c : PacketFormat) (hdr dat : List Byte) : Bool :=
  hdr.length == c.H && dat.length == c.D

/-- The PacketFormat check of CFG.LOAD: `1 <= PSZ <= PMAX` and the sum exact, with no 16-bit wrap (R112). -/
def formatAccepted (p : Params) (psz hsz dsz : Half) : Bool :=
  decide (1 ≤ psz.toNat) && decide (psz.toNat ≤ p.pMax) && hsz.toNat + dsz.toNat == psz.toNat

end Sys2Proof.Machine
end

