-- ==== Sys2Proof/Machine/Ops.lean ====
section
/-! DEFINITION. The named operations over the state: the primitives of 00_scope.md R12 (RbufAppend,
RbufClear, Emit, Write), the write of the configuration registers, the response of a command
(30_encoding.md R81, R88), raising an error (60_exceptions.md R220, R222, R231), and hardware reset
(70_reset_and_hazards.md R250). No other definition changes `cfg`, `rbuf` or `trace`. -/

namespace Sys2Proof.Machine

/-! ## The residual buffer and the configuration registers -/

/-- `RbufAppend(s)` (R12). -/
def State.rbufAppend (s : State) (chunk : List Byte) : State := { s with rbuf := s.rbuf ++ chunk }

/-- `RbufClear()` (R12). -/
def State.rbufClear (s : State) : State := { s with rbuf := [] }

/-- What the Deframer's loop leaves in `rbuf`: its `RbufDrop`s and `RbufClear`s taken together (R12, R191). -/
def State.setRbuf (s : State) (rest : List Byte) : State := { s with rbuf := rest }

/-- Install a PacketFormat in CR0 to CR4 (R112). -/
def State.setCfg (s : State) (c : PacketFormat) : State := { s with cfg := c }

/-- What `IDLE_FILL` presents: the current `cfg.I` (R31, R80). -/
def State.idleFill (s : State) : Byte := s.cfg.idleByte

/-! ## Transactions -/

/-- Deliver one transaction to the host. -/
def State.deliver (s : State) (e : Event) : State := { s with trace := s.trace ++ [e] }

/-- `Emit` of a list of packets, in order, one RX_OUT transaction each (R12, R86). -/
def State.emitAll (s : State) (packets : List (List Byte × List Byte)) : State :=
  { s with trace := s.trace ++ packets.map fun p => Event.rxOut p.1 p.2 }

/-- The transaction is a TX_OUT write. -/
def Event.isWrite : Event → Bool
  | .txOut _ _ => true
  | _ => false

/-- How many TX_OUT writes the DFB has issued. -/
def State.writesIssued (s : State) : Nat := s.trace.countP Event.isWrite

/-- The host's answer to the next write: the one the state gives, else a free value (R87). -/
def State.nextAnswer (s : State) : Bool := s.answers.headD (Config.writeAnswer s.writesIssued)

/-- `Write(s) -> ok`: one TX_OUT transaction (R12, R87). Its answer is the old state's `nextAnswer`. -/
def State.write (s : State) (buffer : List Byte) : State :=
  { s.deliver (.txOut buffer s.nextAnswer) with answers := s.answers.tail }

/-- The one response of the command being executed, on the interface it came by (R81, R88). -/
def State.respond (s : State) (bytes : List Byte) : State := s.deliver (.response s.active bytes)

/-! ## Errors

Taking an exception on the DFB is giving an error response: nothing is saved, no mode changes, control
goes nowhere, and no state changes (R220, R222, R231). There is no return from one (R231): the next
command executes normally. -/

/-- `raise E(info)` (R12): end the command with error E. -/
def State.raise (s : State) (e : CommandError) : State := s.respond e.response

/-- `raise ILLEGAL_COMMAND(OPC)` for a command on an interface that does not serve it (R94). -/
def State.raiseNotServed (s : State) (k : Opcode) : State := s.raise (.illegalCommand (some k.byte))

/-! ## Hardware reset -/

/-- Hardware reset of the DFB: the default PacketFormat, built afresh, and an empty residual buffer
(R114, R250, R251). The host's own records are not DFB state (R32) and stay: DESIGN CHOICE, unsafe, log
entry 6. -/
def State.hardwareReset (s : State) : State := (s.setCfg PacketFormat.default).rbufClear

/-! ## The command interfaces -/

/-- The descriptors waiting on an interface, in arrival order (R81). -/
def State.pending (s : State) : Iface → List (List Byte)
  | .ctrl => s.cmdCtrl
  | .rx => s.cmdRx
  | .tx => s.cmdTx

/-- Replace the descriptors waiting on an interface. -/
def State.setPending (s : State) (i : Iface) (q : List (List Byte)) : State :=
  match i with
  | .ctrl => { s with cmdCtrl := q }
  | .rx => { s with cmdRx := q }
  | .tx => { s with cmdTx := q }

end Sys2Proof.Machine
end

