-- ==== Sys2Proof/Machine/Deframer.lean ====
section
/-! DEFINITION. The Deframer (42_deframer.md): the sliding-window sentinel detector (R173), the
micro-step `rxStep` (R191), the loop of RX.INGEST (R170), and the commands RX.INGEST and RX.RESET. -/

namespace Sys2Proof.Machine

/-- What one micro-step did (R191). -/
inductive RxAction
  /-- Too few bytes for a window: the loop waits for more data (R178). -/
  | suspend
  /-- No sentinel in the buffer: it was discarded and the ingest ends (R174). -/
  | dropAll
  /-- `k` bytes before the first sentinel were discarded (R175). -/
  | align (k : Nat)
  /-- A false match: one sentinel was discarded (R177). -/
  | skip1
  /-- A packet was accepted (R176). -/
  | emit (h d : List Byte)
  deriving DecidableEq, Repr

/-- The packet a micro-step emits, if any (R170). -/
def RxAction.packet? : RxAction → Option (List Byte × List Byte)
  | .emit h d => some (h, d)
  | _ => none

/-- The micro-step ends the ingest: SUSPEND and DROP_ALL exit the loop (R170). -/
def RxAction.exitsLoop : RxAction → Bool
  | .suspend => true
  | .dropAll => true
  | _ => false

/-- The window length `W = P + 2` (R172). -/
def windowLength (c : PacketFormat) : Nat := c.P + 2

/-- Detector output FIRST (R173): the first sentinel of the whole buffer. -/
def detectFirst (c : PacketFormat) (buf : List Byte) : Option Nat := firstIndex buf c.S

/-- Detector output LEAD (R173): the buffer begins with the sentinel. It equals `FIRST == 0`, which is
what `rxStep` tests. -/
def detectLead (c : PacketFormat) (buf : List Byte) : Bool := buf.head? == some c.S

/-- Detector output TRAIL (R173): the byte at the trailing sentinel position is the sentinel. -/
def detectTrail (c : PacketFormat) (buf : List Byte) : Bool := buf[c.P + 1]? == some c.S

/-- What step 2.b leaves of a buffer without a sentinel (R174; the other policy: R182, I1). -/
def noSentRest (pol : NoSentPolicy) (c : PacketFormat) (buf : List Byte) : List Byte :=
  match pol with
  | .discardAll => []
  | .retainTail => buf.drop (buf.length - c.P)

/-- The micro-step `rxStep` on the residual buffer: what it did and what it left (R191, with its cases
R172, R174, R175, R176, R177, R178 in the order R191 gives them). -/
def rxStep (pol : NoSentPolicy) (c : PacketFormat) (buf : List Byte) : RxAction × List Byte :=
  if buf.length < windowLength c then (.suspend, buf)
  else
    match detectFirst c buf with
    | none => (.dropAll, noSentRest pol c buf)
    | some k =>
      if 0 < k then (.align k, buf.drop k)
      else if detectTrail c buf then
        (.emit (slice buf 1 (1 + c.H)) (slice buf (1 + c.H) (1 + c.P)), buf.drop (c.P + 1))
      else (.skip1, buf.drop 1)

/-- The loop of RX.INGEST, at most `fuel` micro-steps: the actions in order, and what is left of the
buffer (R170). -/
def rxLoop (pol : NoSentPolicy) (c : PacketFormat) : Nat → List Byte → List RxAction × List Byte
  | 0, buf => ([], buf)
  | fuel + 1, buf =>
    let r := rxStep pol c buf
    if r.1.exitsLoop then ([r.1], r.2)
    else
      let rest := rxLoop pol c fuel r.2
      (r.1 :: rest.1, rest.2)

/-- The loop run to suspension: every micro-step but the last shortens the buffer, so that its length
bounds their number (R180). DEDUCED, safe: log entry 13. -/
def rxRun (pol : NoSentPolicy) (c : PacketFormat) (buf : List Byte) : List RxAction × List Byte :=
  rxLoop pol c (buf.length + 1) buf

/-- The packets of a list of micro-steps, in order (R170). -/
def packetsOf (actions : List RxAction) : List (List Byte × List Byte) :=
  actions.filterMap RxAction.packet?

/-- RX.INGEST (R170): refuse an over-long chunk (R171, R226); do nothing for an empty one (R171); else
append the chunk, run the loop to suspension, deliver its packets and report their number. On
`CMD_CTRL` or `CMD_TX` it is an ILLEGAL_COMMAND (R94). -/
def execRxIngest (chunk : List Byte) (s : State) : Host.Outcome State Fault Refusal :=
  if Opcode.rxIngest.servedOn s.active then
    if s.params.chunkMax < chunk.length then .next (s.raise (.chunkOverflow chunk.length))
    else if chunk.length = 0 then .next (s.respond (statusOk :: le16OfNat 0))
    else
      let s1 := s.rbufAppend chunk
      let run := rxRun Config.noSentPolicy s1.cfg s1.rbuf
      let packets := packetsOf run.1
      .next (((s1.setRbuf run.2).emitAll packets).respond (statusOk :: le16OfNat packets.length))
  else .next (s.raiseNotServed .rxIngest)

/-- RX.RESET (R183): discard the residual buffer, keep the configuration. On `CMD_CTRL` or `CMD_TX` it
is an ILLEGAL_COMMAND (R94). -/
def execRxReset (s : State) : Host.Outcome State Fault Refusal :=
  if Opcode.rxReset.servedOn s.active then .next (s.rbufClear.respond [statusOk])
  else .next (s.raiseNotServed .rxReset)

end Sys2Proof.Machine
end

