-- ==== Sys2Proof/Machine/Framer.lean ====
section
/-! DEFINITION. The Framer (41_framer.md): TX.FRAME.SELF (R140) and TX.FRAME.PAIR (R141). The size check
comes before any write (R142); a write's answer is reported in WOK and has no other effect (R143). -/

namespace Sys2Proof.Machine

/-- TX.FRAME.SELF (R140): the whole frame as one write. -/
def execTxFrameSelf (hdr dat : List Byte) (s : State) : Host.Outcome State Fault Refusal :=
  if Opcode.txFrameSelf.servedOn s.active then
    if packetSizesMatch s.cfg hdr dat then
      .next ((s.write (frame s.cfg hdr dat)).respond [statusOk, wokSelf s.nextAnswer])
    else .next (s.raise (.invalidFrameSize hdr.length dat.length))
  else .next (s.raiseNotServed .txFrameSelf)

/-- TX.FRAME.PAIR (R141): the leading sentinel, the body and the trailing sentinel as three writes, all
issued whatever the answers (R143). -/
def execTxFramePair (hdr dat : List Byte) (s : State) : Host.Outcome State Fault Refusal :=
  if Opcode.txFramePair.servedOn s.active then
    if packetSizesMatch s.cfg hdr dat then
      let s1 := s.write [s.cfg.S]
      let s2 := s1.write (hdr ++ dat)
      let s3 := s2.write [s.cfg.S]
      .next (s3.respond [statusOk, wokPair s.nextAnswer s1.nextAnswer s2.nextAnswer])
    else .next (s.raise (.invalidFrameSize hdr.length dat.length))
  else .next (s.raiseNotServed .txFramePair)

end Sys2Proof.Machine
end

