-- ==== Sys2Proof/Machine/PacketModel.lean ====
section
/-! DEFINITION. The commands of the packet model (40_packet_model.md): CFG.LOAD (R112) and PKT.SPLIT (R113). -/

namespace Sys2Proof.Machine

/-- CFG.LOAD (R112): check the proposed PacketFormat, install it and start a new session with an empty
residual buffer. On `CMD_RX` or `CMD_TX` it is an ILLEGAL_COMMAND (R94). -/
def execCfgLoad (psz hsz dsz : Half) (sent idle : Byte) (s : State) :
    Host.Outcome State Fault Refusal :=
  if Opcode.cfgLoad.servedOn s.active then
    if formatAccepted s.params psz hsz dsz then
      .next (((s.setCfg { packetSize := psz, headerSize := hsz, dataSize := dsz,
                          sentinelByte := sent, idleByte := idle }).rbufClear).respond [statusOk])
    else .next (s.raise .invalidConfig)
  else .next (s.raiseNotServed .cfgLoad)

/-- PKT.SPLIT (R113): split a body of exactly `cfg.P` bytes into header and data, in the response. On
`CMD_CTRL` it is an ILLEGAL_COMMAND (R94). -/
def execPktSplit (body : List Byte) (s : State) : Host.Outcome State Fault Refusal :=
  if Opcode.pktSplit.servedOn s.active then
    if body.length = s.cfg.P then
      .next (s.respond (statusOk :: (le16 s.cfg.headerSize ++ bodyHeader s.cfg body
        ++ le16 s.cfg.dataSize ++ bodyData s.cfg body)))
    else .next (s.raise (.invalidBodySize body.length))
  else .next (s.raiseNotServed .pktSplit)

end Sys2Proof.Machine
end

