-- ==== Sys2Proof/Machine/Dispatch.lean ====
section
/-! DEFINITION. One arm for each command of the opcode table: a direct call of its meaning. -/

namespace Sys2Proof.Machine

def exec (i : Instr) (s : State) : Host.Outcome State Fault Refusal :=
  match i with
  | .cfgLoad psz hsz dsz sent idle => Sys2Proof.Machine.execCfgLoad psz hsz dsz sent idle s
  | .rxIngest chunk => Sys2Proof.Machine.execRxIngest chunk s
  | .rxReset => Sys2Proof.Machine.execRxReset s
  | .txFrameSelf hdr dat => Sys2Proof.Machine.execTxFrameSelf hdr dat s
  | .txFramePair hdr dat => Sys2Proof.Machine.execTxFramePair hdr dat s
  | .pktSplit body => Sys2Proof.Machine.execPktSplit body s

end Sys2Proof.Machine
end

