-- ==== Sys2Proof/Machine/Fetch.lean ====
section
/-! DEFINITION. How the DFB comes by its next command. There is no program counter and no fetch from
memory (10_state.md R22): the next turn of the interleaving names an agent, and that agent takes the
first descriptor waiting on its interface (30_encoding.md R81, 20_memory.md R53). -/

namespace Sys2Proof.Machine

/-- What the next turn brings, with the state after it has been taken. -/
inductive Fetched
  /-- Nothing to do: the DFB stays idle and keeps its state (60_exceptions.md R238). -/
  | idle (s : State)
  /-- Hardware reset (70_reset_and_hazards.md R250). -/
  | reset (s : State)
  /-- A command descriptor, in a state whose `active` interface is the one it came by (R81). -/
  | command (descriptor : List Byte) (s : State)
  deriving DecidableEq, Repr

/-- The turn has been taken off the interleaving. -/
def State.tookTurn (s : State) : State := { s with schedule := s.schedule.tail }

/-- The agent of interface `i` has taken the first descriptor waiting there and left `rest`. -/
def State.tookCommand (s : State) (i : Iface) (rest : List (List Byte)) : State :=
  { s.setPending i rest with active := i }

/-- The next turn (R53, R81). An agent with no command waiting does nothing (R238). -/
def fetch (s : State) : Fetched :=
  match s.schedule with
  | [] => .idle s
  | .hardwareReset :: _ => .reset s.tookTurn
  | .serve i :: _ =>
    match s.pending i with
    | [] => .idle s.tookTurn
    | descriptor :: rest => .command descriptor (s.tookTurn.tookCommand i rest)

/-- The host presents a descriptor on an interface ahead of all others there, and that interface's agent
steps next. Log entry 7. -/
def State.presentNext (s : State) (i : Iface) (descriptor : List Byte) : State :=
  { s.setPending i (descriptor :: s.pending i) with schedule := .serve i :: s.schedule }

/-- An interface that serves the opcode of a descriptor (R83); for a descriptor with no assigned opcode
any interface will do, and `CMD_CTRL` is taken. DESIGN CHOICE, safe: log entry 7. -/
def homeInterface (descriptor : List Byte) : Iface :=
  match descriptor.head?.bind Opcode.ofByte? with
  | some .cfgLoad => .ctrl
  | some .rxIngest => .rx
  | some .rxReset => .rx
  | some .txFrameSelf => .tx
  | some .txFramePair => .tx
  | some .pktSplit => .rx
  | none => .ctrl

/-- A descriptor that spells no command raises ILLEGAL_COMMAND with its opcode byte, if it has one, and
has no other effect (30_encoding.md R92, R93; 60_exceptions.md R225). -/
def State.raiseUndecodable (s : State) (e : DecodeError) : State :=
  s.raise (.illegalCommand e.opcodeInfo)

end Sys2Proof.Machine
end

