-- ==== Sys2Proof/Machine/Step.lean ====
section
/-! DEFINITION. One atomic step of the DFB (20_memory.md R57): the next turn of the interleaving is taken,
and the command it brings, if any, runs whole. -/

namespace Sys2Proof.Machine

/-- One step (R53, R57, R81): idle, hardware reset, or one command from descriptor to response. -/
def step (s : State) : Host.Outcome State Fault Refusal :=
  match fetch s with
  | .idle t => .next t
  | .reset t => .next t.hardwareReset
  | .command descriptor t =>
    match decode descriptor with
    | .error e => .next (t.raiseUndecodable e)
    | .ok i => exec i t

/-- `s` with the descriptor of a table word presented on an interface that serves it, as that agent's
next command, and that agent's turn next. Everything else is as in `s`. -/
def State.withFetchWord (s : State) (nbits w : Nat) : State :=
  s.presentNext (homeInterface (tableDescriptor nbits w)) (tableDescriptor nbits w)

end Sys2Proof.Machine
end

