-- ==== Sys2Proof/Machine/Assembler.lean ====
section
/-! DEFINITION. The pseudo-instructions of the DFB assembler (30_encoding.md R96), each as the command or
commands it expands to. The descriptor of a command as R95 writes it is `encode`. -/

namespace Sys2Proof.Machine

/-- `CFG.DEFAULT`: `CFG.LOAD 64, 16, 48, 0x00, 0xFF` (R96, R114). -/
def cfgDefault : Instr := .cfgLoad 64 16 48 0x00 0xFF

/-- The pieces of `s` between the cut points `a`, `k1`, ..., `kn` and its end (R96). Cut points that do not
rise or lie past the end are cut as `slice` cuts: DESIGN CHOICE, unsafe, log entry 18. -/
def piecesFrom (s : List Byte) : Nat → List Nat → List (List Byte)
  | a, [] => [s.drop a]
  | a, k :: ks => slice s a k :: piecesFrom s k ks

/-- `RX.FEED s` with the cut points `k1`, ..., `kn`: one RX.INGEST for each piece (R96). -/
def rxFeed (s : List Byte) (cuts : List Nat) : List Instr := (piecesFrom s 0 cuts).map Instr.rxIngest

/-- `TX.SEND b`: `TX.FRAME.SELF b[0:H], b[H:len(b)]` under the configuration at expansion time (R96).
A body shorter than `H`, for which R11 gives these slices no meaning, becomes the whole header operand and
leaves the data operand empty, which fixes the two lengths in the INVALID_PACKET_SIZE response that R96
states: DESIGN CHOICE, unsafe, log entry 18. -/
def txSend (c : PacketFormat) (b : List Byte) : Instr :=
  .txFrameSelf (slice b 0 c.H) (slice b c.H b.length)

end Sys2Proof.Machine
end

