-- ==== Sys2Proof/Safety.lean ====
section
/-! DEFINITION. The terms in which claims are made: the legal formats and the invariant of the state
between commands (10_state.md R21, R25, R32), what a run shows (70_reset_and_hazards.md R261), runs of
steps and of RX.INGEST commands, the candidate chain of 42_deframer.md R187, and the wire streams of
30_encoding.md R91. No step uses anything of this file. -/

namespace Sys2Proof

/-- The legal values of the configuration registers: `1 <= P <= PMAX` and `H + D == P` (R21, R32). -/
abbrev PacketFormat.Legal (c : PacketFormat) (p : Params) : Prop :=
  1 ≤ c.P ∧ c.P ≤ p.pMax ∧ c.H + c.D = c.P

namespace Machine

/-! ## Invariant -/

/-- What holds between commands: legal parameters (R6), a legal PacketFormat (R21), and
`len(rbuf) <= P + 1` (R25, R32). -/
abbrev State.Inv (s : State) : Prop :=
  s.params.Legal ∧ s.cfg.Legal s.params ∧ s.rbuf.length ≤ s.cfg.P + 1

/-! ## What a run shows (R261) -/

/-- The packet of an RX_OUT transaction. -/
def Event.packet? : Event → Option (List Byte × List Byte)
  | .rxOut h d => some (h, d)
  | _ => none

/-- The buffer of a TX_OUT transaction. -/
def Event.buffer? : Event → Option (List Byte)
  | .txOut b _ => some b
  | _ => none

/-- The buffer of a TX_OUT transaction with the host's answer. -/
def Event.write? : Event → Option (List Byte × Bool)
  | .txOut b ok => some (b, ok)
  | _ => none

/-- The response bytes of a response on interface `i`. -/
def Event.responseOn? (i : Iface) : Event → Option (List Byte)
  | .response on bytes => if on = i then some bytes else none
  | _ => none

/-- The event is a response. -/
def Event.isResponse : Event → Bool
  | .response _ _ => true
  | _ => false

/-- The sequence of RX_OUT packets. -/
def State.rxOut (s : State) : List (List Byte × List Byte) := s.trace.filterMap Event.packet?

/-- The sequence of TX_OUT write buffers. -/
def State.txBuffers (s : State) : List (List Byte) := s.trace.filterMap Event.buffer?

/-- The sequence of TX_OUT writes with their answers. -/
def State.txOut (s : State) : List (List Byte × Bool) := s.trace.filterMap Event.write?

/-- The sequence of responses on an interface. -/
def State.responses (s : State) (i : Iface) : List (List Byte) :=
  s.trace.filterMap (Event.responseOn? i)

/-- What a run shows (R261): for each interface the responses, the RX_OUT packets, the TX_OUT writes,
and the final `cfg` and `rbuf`. -/
structure Observation where
  ctrlResponses : List (List Byte)
  rxResponses : List (List Byte)
  txResponses : List (List Byte)
  rxOut : List (List Byte × List Byte)
  txOut : List (List Byte × Bool)
  cfg : PacketFormat
  rbuf : List Byte
  deriving DecidableEq, Repr

/-- What a run that has come to `s` shows. -/
def State.observe (s : State) : Observation :=
  { ctrlResponses := s.responses .ctrl
    rxResponses := s.responses .rx
    txResponses := s.responses .tx
    rxOut := s.rxOut
    txOut := s.txOut
    cfg := s.cfg
    rbuf := s.rbuf }

/-- The host's answer to the write after the next `n`: given by the state, or free (R87). -/
def State.answerAt (s : State) (n : Nat) : Bool :=
  s.answers.getD n (Config.writeAnswer (s.writesIssued + n))

/-! ## Runs -/

/-- `n` steps. -/
def steps : Nat → State → Host.Outcome State Fault Refusal
  | 0, s => .next s
  | n + 1, s =>
    match step s with
    | .next t => steps n t
    | .fault r => .fault r
    | .refused r => .refused r

/-- The RX.INGEST commands of a list of chunks, one after another. -/
def ingestAll : List (List Byte) → State → Host.Outcome State Fault Refusal
  | [], s => .next s
  | chunk :: chunks, s =>
    match exec (.rxIngest chunk) s with
    | .next t => ingestAll chunks t
    | .fault r => .fault r
    | .refused r => .refused r

/-- `s` is at the start of a session on `CMD_RX` with a legal format, and every chunk is one RX.INGEST
accepts (R171, R187, R254). -/
abbrev RxReady (s : State) (chunks : List (List Byte)) : Prop :=
  s.active = .rx ∧ s.rbuf = [] ∧ s.cfg.Legal s.params ∧
    ∀ chunk ∈ chunks, chunk.length ≤ s.params.chunkMax

/-- Feeding the chunks runs to the end and emits exactly these packets, in this order. -/
def Emits (s : State) (chunks : List (List Byte)) (packets : List (List Byte × List Byte)) : Prop :=
  ∃ t, ingestAll chunks s = .next t ∧ t.rxOut = s.rxOut ++ packets

/-- The Deframer alone, fed chunk by chunk under a given step 2.b policy: the packets and the residual
buffer. An empty chunk runs no micro-step (R171). -/
def feed (pol : NoSentPolicy) (c : PacketFormat) :
    List Byte → List (List Byte) → List (List Byte × List Byte) × List Byte
  | buf, [] => ([], buf)
  | buf, chunk :: chunks =>
    if chunk = [] then feed pol c buf chunks
    else
      let run := rxRun pol c (buf ++ chunk)
      let rest := feed pol c run.2 chunks
      (packetsOf run.1 ++ rest.1, rest.2)

/-! ## The candidate chain (R187) -/

/-- The chain from a candidate over the stream `st`: the offsets that emit, in order, and the pending
candidate or NONE. `fuel` bounds the number of candidates. -/
def chainFrom (c : PacketFormat) (st : List Byte) : Nat → Option Nat → List Nat × Option Nat
  | 0, cand => ([], cand)
  | _ + 1, none => ([], none)
  | fuel + 1, some q =>
    if q + c.P + 1 < st.length then
      if st[q + c.P + 1]? = some c.S then
        (q :: (chainFrom c st fuel (some (q + c.P + 1))).1,
          (chainFrom c st fuel (some (q + c.P + 1))).2)
      else chainFrom c st fuel ((firstIndex (st.drop (q + 1)) c.S).map (· + (q + 1)))
    else ([], some q)

/-- The candidate chain over a whole stream; every candidate lies after the one before, so the stream's
length bounds their number. -/
def chain (c : PacketFormat) (st : List Byte) : List Nat × Option Nat :=
  chainFrom c st (st.length + 1) (firstIndex st c.S)

/-- The packet of the candidate at offset `q`: `(st[q+1 : q+1+H], st[q+1+H : q+1+P])` (R187). -/
def packetAt (c : PacketFormat) (st : List Byte) (q : Nat) : List Byte × List Byte :=
  (slice st (q + 1) (q + 1 + c.H), slice st (q + 1 + c.H) (q + 1 + c.P))

/-- The chain's emissions. -/
def chainPackets (c : PacketFormat) (st : List Byte) : List (List Byte × List Byte) :=
  (chain c st).1.map (packetAt c st)

/-- `c*` of R187: the pending candidate, or the stream's length if the chain ended at NONE. -/
def chainStop (c : PacketFormat) (st : List Byte) : Nat := (chain c st).2.getD st.length

/-! ## Wire streams (R91) -/

/-- A body split under the format (R113). -/
def splitBody (c : PacketFormat) (body : List Byte) : List Byte × List Byte :=
  (body.take c.H, body.drop c.H)

/-- The micro-step's action for an accepted body (R176). -/
def emitBody (c : PacketFormat) (body : List Byte) : RxAction :=
  .emit (splitBody c body).1 (splitBody c body).2

/-- The shared form: `[S] ++ b1 ++ [S] ++ ... ++ bn ++ [S]` (R91). -/
def sharedStream (c : PacketFormat) : List (List Byte) → List Byte
  | [] => [c.S]
  | b :: bs => [c.S] ++ b ++ sharedStream c bs

end Machine

end Sys2Proof
end

