-- ==== Sys2Proof/Certificates/Slice0/Obligations.lean ====
section
/-! DEFINITION. The statements for the provers: what the numbered rules of spec/ say the DFB does. Each is
about every state and every operand that meets its hypotheses, whatever the implementation parameters.
A next state is written out as the old state with the fields that change, so that it says what stays the
same too. -/

open Sys2Proof Sys2Proof.Machine

/-! ## Descriptors -/

/-- R84, R85, R97: the descriptor of every well-formed command decodes to that command, every operand
at every value its field admits. -/
def Obligations.DecodeOfEncodeIsTheCommand : Prop :=
  ∀ i : Instr, i.wellFormed = true → decode (encode i) = .ok i

/-- R84, R93: a descriptor that decodes is the one descriptor of the command it decodes to, and that
command is well formed. -/
def Obligations.EncodeOfDecodeIsTheDescriptor : Prop :=
  ∀ (d : List Byte) (i : Instr), decode d = .ok i → i.wellFormed = true ∧ encode i = d

/-- R93, R97: a descriptor with an assigned opcode decodes exactly when its length is the one the length
rule gives; otherwise it is malformed. -/
def Obligations.AssignedDescriptorDecodesIffLengthFits : Prop :=
  ∀ (opc : Byte) (rest : List Byte) (k : Opcode), Opcode.ofByte? opc = some k →
    ((∃ i, decode (opc :: rest) = .ok i ∧ i.opcode = k) ↔
      descriptorLength (opc :: rest) = some (opc :: rest).length) ∧
    (descriptorLength (opc :: rest) ≠ some (opc :: rest).length →
      decode (opc :: rest) = .error (.malformed opc))

/-- R82, R83, R92: the six assigned opcode bytes select their commands, and each of the other 250 values
spells none. -/
def Obligations.SixOpcodesAreAssigned : Prop :=
  (∀ k : Opcode, Opcode.ofByte? k.byte = some k) ∧
  (∀ opc : Byte, opc ∉ [0x01#8, 0x10#8, 0x11#8, 0x20#8, 0x21#8, 0x30#8] →
    ∀ rest, decode (opc :: rest) = .error (.unassigned opc)) ∧
  ((List.range 256).filter fun n => (Opcode.ofByte? (BitVec.ofNat 8 n)).isNone).length = 250

/-- R52: an LE16 field is its low byte and then its high byte, and is read back exactly. -/
def Obligations.SixteenBitFieldsAreLittleEndian : Prop :=
  ∀ v : Half, ∃ lo hi : Byte, le16 v = [lo, hi] ∧ v.toNat = lo.toNat + 256 * hi.toNat ∧
    readLe16 lo hi = v

/-- R83, R84: descriptors written out byte by byte from the formats decode to their commands. -/
def Obligations.WrittenOutDescriptorsDecode : Prop :=
  decode [0x01, 0x04, 0x00, 0x01, 0x00, 0x03, 0x00, 0x00, 0xFF] = .ok (.cfgLoad 4 1 3 0x00 0xFF) ∧
  decode [0x10, 0x02, 0x00, 0xAB, 0xCD] = .ok (.rxIngest [0xAB, 0xCD]) ∧
  decode [0x11] = .ok .rxReset ∧
  decode [0x20, 0x01, 0x00, 0xAA, 0x02, 0x00, 0x01, 0x02] = .ok (.txFrameSelf [0xAA] [0x01, 0x02]) ∧
  decode [0x21, 0x02, 0x00, 0xAA, 0xBB, 0x01, 0x00, 0x01] = .ok (.txFramePair [0xAA, 0xBB] [0x01]) ∧
  decode [0x30, 0x03, 0x00, 0x11, 0x22, 0x33] = .ok (.pktSplit [0x11, 0x22, 0x33])

/-! ## Steps -/

/-- R81, R53: the agent whose turn it is takes the first descriptor waiting on its interface; when it
decodes, the step is the command's execution, with the turn and the descriptor taken and the interface
noted. The queues, the turns and the noted interface are the model's (log entries 2 and 4). -/
def Obligations.StepRunsTheDecodedCommand : Prop :=
  ∀ (s : State) (a : Iface) (turns : List Turn) (d : List Byte) (rest : List (List Byte)) (i : Instr),
    s.schedule = .serve a :: turns → s.pending a = d :: rest → decode d = .ok i →
    step s = exec i { s.setPending a rest with schedule := turns, active := a }

/-- R92, R93: a descriptor whose opcode byte is none of the six assigned ones, or whose length is not the
one the length rule R97 gives (an empty descriptor among them, and one with an unreadable length field),
is answered ILLEGAL_COMMAND with its opcode byte, if it has one, and nothing else happens. That the
descriptor and the turn are gone is the model's way of taking a command (log entry 2). -/
def Obligations.UndecodableDescriptorOnlyAnswersIllegalCommand : Prop :=
  ∀ (s : State) (a : Iface) (turns : List Turn) (d : List Byte) (rest : List (List Byte)),
    s.schedule = .serve a :: turns → s.pending a = d :: rest →
    ((∃ opc operands, d = opc :: operands ∧
        opc ∉ [0x01#8, 0x10#8, 0x11#8, 0x20#8, 0x21#8, 0x30#8]) ∨
      descriptorLength d ≠ some d.length) →
    step s = .next { s.setPending a rest with
      schedule := turns, active := a,
      trace := s.trace ++ [.response a (0x03 :: d.take 1)] }

/-- R94: a command on an interface that does not serve it is answered ILLEGAL_COMMAND with its opcode,
whatever its operands, and nothing else happens. -/
def Obligations.WrongInterfaceOnlyAnswersIllegalCommand : Prop :=
  ∀ (i : Instr) (s : State), i.opcode.servedOn s.active = false →
    exec i s = .next { s with trace := s.trace ++ [.response s.active [0x03, i.opcode.byte]] }

/-- R83: which interface serves which command. -/
def Obligations.EachCommandIsServedOnItsInterfaces : Prop :=
  ∀ i : Instr, ∀ a : Iface, i.opcode.servedOn a = true ↔
    (match i with
      | .cfgLoad _ _ _ _ _ => a = .ctrl
      | .rxIngest _ => a = .rx
      | .rxReset => a = .rx
      | .txFrameSelf _ _ => a = .tx
      | .txFramePair _ _ => a = .tx
      | .pktSplit _ => a ≠ .ctrl)

/-- The model's choice of how idling shows (log entry 2; 60_exceptions.md section 4: between commands the
DFB keeps its state): with no command waiting for the agent whose turn it is, or with no turn to take, a
step changes nothing but the list of turns. -/
def Obligations.IdleStepKeepsEverything : Prop :=
  (∀ s : State, s.schedule = [] → step s = .next s) ∧
  (∀ (s : State) (a : Iface) (turns : List Turn), s.schedule = .serve a :: turns → s.pending a = [] →
    step s = .next { s with schedule := turns })

/-- No step stops: the DFB answers every command and never faults or sticks (log entry 9, DEDUCED from
93_implementation_defined.md and 60_exceptions.md). -/
def Obligations.EveryStepHasANextState : Prop :=
  ∀ s : State, ∃ t, step s = .next t

/-- R81, R221, R229: a step that takes a descriptor gives exactly one response, on the interface the
descriptor came by and after all the command's RX_OUT and TX_OUT transactions; its first byte is one of
the five status codes. The one list of all transactions is the model's (log entry 5). -/
def Obligations.EachCommandGivesOneResponseLast : Prop :=
  ∀ (s t : State) (a : Iface) (turns : List Turn) (d : List Byte) (rest : List (List Byte)),
    s.schedule = .serve a :: turns → s.pending a = d :: rest → step s = .next t →
    ∃ (outputs : List Event) (status : Byte) (info : List Byte),
      t.trace = s.trace ++ outputs ++ [.response a (status :: info)] ∧
      (∀ e ∈ outputs, e.isResponse = false) ∧ status.toNat ≤ 4

/-- R222: a step whose command ends with a status other than OK changes no DFB state and gives nothing
but its response. -/
def Obligations.FailedCommandChangesNothing : Prop :=
  ∀ (s t : State) (a : Iface) (turns : List Turn) (d : List Byte) (rest : List (List Byte))
    (on : Iface) (status : Byte) (info : List Byte),
    s.schedule = .serve a :: turns → s.pending a = d :: rest → step s = .next t →
    t.trace.getLast? = some (.response on (status :: info)) → status ≠ 0x00 →
    t = { s.setPending a rest with
      schedule := turns, active := a,
      trace := s.trace ++ [.response a (status :: info)] }

/-! ## Reset -/

/-- 70_reset_and_hazards.md section 1: the state after hardware reset has the default PacketFormat and an
empty residual buffer, and IDLE_FILL presents 0xFF, for all parameters, and so for the model's reset state.
That this state has no descriptor waiting and an empty list of transactions is the model's choice for the
start of a run (log entries 2, 5 and 7); a reset in the middle of a run keeps both (log entry 6). -/
def Obligations.ResetStateIsTheSpecs : Prop :=
  (∀ p : Params,
    (State.resetWith p).cfg.P = 64 ∧ (State.resetWith p).cfg.H = 16 ∧ (State.resetWith p).cfg.D = 48 ∧
    (State.resetWith p).cfg.S = 0x00 ∧ (State.resetWith p).cfg.I = 0xFF ∧
    (State.resetWith p).rbuf = [] ∧ (∀ a, (State.resetWith p).pending a = []) ∧
    (State.resetWith p).trace = [] ∧ (State.resetWith p).idleFill = 0xFF) ∧
  ∃ p : Params, State.reset = State.resetWith p

/-- R250, R251: hardware reset in a run puts the default PacketFormat into the registers and empties the
residual buffer. That it is a turn, and what it leaves of the model's own records, are the model's choice
(log entry 6). -/
def Obligations.HardwareResetRestoresDefaults : Prop :=
  ∀ (s : State) (turns : List Turn), s.schedule = .hardwareReset :: turns →
    step s = .next { s with
      schedule := turns,
      cfg := { packetSize := 64, headerSize := 16, dataSize := 48, sentinelByte := 0x00,
               idleByte := 0xFF },
      rbuf := [] }

/-- R25, R32: the invariant of the state holds after reset. That the parameters stand in the state, in
their legal ranges, is the model's choice (log entry 1). -/
def Obligations.InvariantHoldsAtReset : Prop := State.Inv State.reset

/-- R21, R25, R32: every step keeps the invariant: legal parameters, a legal PacketFormat with
`H + D = P`, and at most `P + 1` bytes in the residual buffer between commands. -/
def Obligations.EveryStepKeepsTheInvariant : Prop :=
  ∀ s t : State, s.Inv → step s = .next t → t.Inv

/-- No step changes the parameters of the implementation, which the model holds in its state by its own
choice (log entry 1; 10_state.md section 4 has them as arguments of the step). -/
def Obligations.NoStepChangesTheParameters : Prop :=
  ∀ s t : State, step s = .next t → t.params = s.params

/-- R110: the PacketFormat changes only at hardware reset and at a successful CFG.LOAD, which installs
a legal format and starts a session with an empty residual buffer. -/
def Obligations.ConfigurationChangesOnlyAtCfgLoadOrReset : Prop :=
  ∀ s t : State, step s = .next t → t.cfg ≠ s.cfg →
    s.schedule.head? = some .hardwareReset ∨
    (s.schedule.head? = some (.serve .ctrl) ∧ t.cfg.Legal s.params ∧ t.rbuf = [] ∧
      ∃ d rest, s.cmdCtrl = d :: rest ∧
        decode d = .ok (.cfgLoad t.cfg.packetSize t.cfg.headerSize t.cfg.dataSize
          t.cfg.sentinelByte t.cfg.idleByte))

/-- R24, R64: the residual buffer changes only by RX.INGEST and RX.RESET of the RX agent, and is otherwise
only cleared: by a successful CFG.LOAD of CTRL and by hardware reset. -/
def Obligations.ResidualBufferBelongsToRx : Prop :=
  ∀ s t : State, step s = .next t → t.rbuf ≠ s.rbuf →
    (s.schedule.head? = some (.serve .rx) ∧ t.cfg = s.cfg ∧ ∃ d rest, s.cmdRx = d :: rest ∧
      ((∃ chunk, chunk ≠ [] ∧ decode d = .ok (.rxIngest chunk)) ∨
        (decode d = .ok .rxReset ∧ t.rbuf = []))) ∨
    (s.schedule.head? = some (.serve .ctrl) ∧ t.rbuf = [] ∧ ∃ d rest, s.cmdCtrl = d :: rest ∧
      decode d = .ok (.cfgLoad t.cfg.packetSize t.cfg.headerSize t.cfg.dataSize
        t.cfg.sentinelByte t.cfg.idleByte)) ∨
    (s.schedule.head? = some .hardwareReset ∧ t.rbuf = [])

/-! ## CFG.LOAD and PKT.SPLIT -/

/-- R112: an accepted CFG.LOAD installs the format, empties the residual buffer and answers OK; nothing
else changes. -/
def Obligations.CfgLoadInstallsAnAcceptedFormat : Prop :=
  ∀ (psz hsz dsz : Half) (sent idle : Byte) (s : State),
    s.active = .ctrl → 1 ≤ psz.toNat → psz.toNat ≤ s.params.pMax →
    hsz.toNat + dsz.toNat = psz.toNat →
    exec (.cfgLoad psz hsz dsz sent idle) s = .next { s with
      cfg := { packetSize := psz, headerSize := hsz, dataSize := dsz, sentinelByte := sent,
               idleByte := idle },
      rbuf := [],
      trace := s.trace ++ [.response .ctrl [0x00]] }

/-- R112, R224: a CFG.LOAD whose size is out of range or whose exact sum is wrong answers INVALID_CONFIG
and changes nothing. -/
def Obligations.CfgLoadRefusesABadFormat : Prop :=
  ∀ (psz hsz dsz : Half) (sent idle : Byte) (s : State),
    s.active = .ctrl →
    (psz.toNat < 1 ∨ s.params.pMax < psz.toNat ∨ hsz.toNat + dsz.toNat ≠ psz.toNat) →
    exec (.cfgLoad psz hsz dsz sent idle) s =
      .next { s with trace := s.trace ++ [.response .ctrl [0x02]] }

/-- R113: PKT.SPLIT of a body of `P` bytes answers header and data, on either of its interfaces, and
changes nothing. -/
def Obligations.PktSplitAnswersHeaderAndData : Prop :=
  ∀ (body : List Byte) (s : State), s.active ≠ .ctrl → body.length = s.cfg.P →
    exec (.pktSplit body) s = .next { s with
      trace := s.trace ++ [.response s.active ([0x00] ++ le16 s.cfg.headerSize ++
        body.take s.cfg.H ++ le16 s.cfg.dataSize ++ body.drop s.cfg.H)] }

/-- R113, R223: PKT.SPLIT of a body of another length answers INVALID_PACKET_SIZE with that length and
changes nothing. -/
def Obligations.PktSplitRefusesAnotherLength : Prop :=
  ∀ (body : List Byte) (s : State), s.active ≠ .ctrl → body.length ≠ s.cfg.P →
    exec (.pktSplit body) s = .next { s with
      trace := s.trace ++ [.response s.active (0x01 :: le16OfNat body.length)] }

/-! ## The Framer -/

/-- R140, R88: TX.FRAME.SELF of a packet of the right sizes issues the whole frame as one write and
reports its answer; no register and no byte of the residual buffer changes. -/
def Obligations.TxFrameSelfWritesTheFrameOnce : Prop :=
  ∀ (hdr dat : List Byte) (s : State), s.active = .tx →
    hdr.length = s.cfg.H → dat.length = s.cfg.D →
    exec (.txFrameSelf hdr dat) s = .next { s with
      answers := s.answers.drop 1,
      trace := s.trace ++
        [.txOut ([s.cfg.S] ++ hdr ++ dat ++ [s.cfg.S]) (s.answerAt 0),
         .response .tx [0x00, if s.answerAt 0 then 1 else 0]] }

/-- R141, R88, R143: TX.FRAME.PAIR of a packet of the right sizes issues its three writes, whatever their
answers, and reports them; no register and no byte of the residual buffer changes. -/
def Obligations.TxFramePairWritesThreeTimes : Prop :=
  ∀ (hdr dat : List Byte) (s : State), s.active = .tx →
    hdr.length = s.cfg.H → dat.length = s.cfg.D →
    exec (.txFramePair hdr dat) s = .next { s with
      answers := s.answers.drop 3,
      trace := s.trace ++
        [.txOut [s.cfg.S] (s.answerAt 0), .txOut (hdr ++ dat) (s.answerAt 1),
         .txOut [s.cfg.S] (s.answerAt 2),
         .response .tx [0x00, (if s.answerAt 0 then 1 else 0) + (if s.answerAt 1 then 2 else 0)
           + (if s.answerAt 2 then 4 else 0)]] }

/-- R142, R223: a framing command with a wrong header or data length answers INVALID_PACKET_SIZE with
both lengths, before any write, and changes nothing. -/
def Obligations.FramingChecksSizesBeforeAnyWrite : Prop :=
  ∀ (hdr dat : List Byte) (s : State), s.active = .tx →
    (hdr.length ≠ s.cfg.H ∨ dat.length ≠ s.cfg.D) →
    exec (.txFrameSelf hdr dat) s = .next { s with trace := s.trace ++
      [.response .tx (0x01 :: (le16OfNat hdr.length ++ le16OfNat dat.length))] } ∧
    exec (.txFramePair hdr dat) s = .next { s with trace := s.trace ++
      [.response .tx (0x01 :: (le16OfNat hdr.length ++ le16OfNat dat.length))] }

/-- R58, R89, R90: the one write of TX.FRAME.SELF and the three of TX.FRAME.PAIR carry the same
`P + 2` bytes, sentinel first and last. -/
def Obligations.BothVariantsCarryTheSameBytes : Prop :=
  ∀ (hdr dat : List Byte) (s t u : State), s.active = .tx → s.cfg.Legal s.params →
    hdr.length = s.cfg.H → dat.length = s.cfg.D →
    exec (.txFrameSelf hdr dat) s = .next t → exec (.txFramePair hdr dat) s = .next u →
    ∃ one three : List (List Byte), t.txBuffers = s.txBuffers ++ one ∧
      u.txBuffers = s.txBuffers ++ three ∧ one.length = 1 ∧
      three.map List.length = [1, s.cfg.P, 1] ∧ one.flatten = three.flatten ∧
      one.flatten.length = s.cfg.P + 2 ∧ one.flatten.head? = some s.cfg.S ∧
      one.flatten.getLast? = some s.cfg.S ∧ slice one.flatten 1 (s.cfg.P + 1) = hdr ++ dat

/-- R87, R143: the write answers reach nothing but the WOK byte and the record of the writes that they
answer. Whatever the answers, a command leaves the same state but for what it delivered and the answers
still to come, gives the same packets and the same write buffers, and gives responses of the same length
that agree in every byte but byte 1. A command that writes nothing, because it is no framing command, came
by another interface than CMD_TX, or has a wrong length, gives exactly the same transactions. Where the
answers stand is the model's choice (log entry 3). -/
def Obligations.WriteAnswersReachOnlyTheResponse : Prop :=
  ∀ (i : Instr) (s t u : State) (other : List Bool), exec i s = .next t →
    exec i { s with answers := other } = .next u →
    { u with trace := t.trace, answers := t.answers } = t ∧
    u.rxOut = t.rxOut ∧ u.txBuffers = t.txBuffers ∧
    (∀ a, (u.responses a).map (fun bytes => bytes.set 1 0x00) =
      (t.responses a).map (fun bytes => bytes.set 1 0x00)) ∧
    (¬ (s.active = .tx ∧ ∃ hdr dat, (i = .txFrameSelf hdr dat ∨ i = .txFramePair hdr dat) ∧
        hdr.length = s.cfg.H ∧ dat.length = s.cfg.D) →
      u.trace = t.trace)

/-- R27, R144: what a framing command writes is a function of the configuration and its operands alone,
and it changes neither the configuration nor the residual buffer. -/
def Obligations.FramerIsStateless : Prop :=
  ∀ (i : Instr) (s1 s2 t1 t2 : State),
    ((∃ hdr dat, i = .txFrameSelf hdr dat) ∨ ∃ hdr dat, i = .txFramePair hdr dat) →
    s1.active = s2.active → s1.cfg.P = s2.cfg.P → s1.cfg.H = s2.cfg.H → s1.cfg.D = s2.cfg.D →
    s1.cfg.S = s2.cfg.S →
    exec i s1 = .next t1 → exec i s2 = .next t2 →
    (∃ buffers, t1.txBuffers = s1.txBuffers ++ buffers ∧ t2.txBuffers = s2.txBuffers ++ buffers) ∧
    t1.cfg = s1.cfg ∧ t1.rbuf = s1.rbuf ∧ t1.rxOut = s1.rxOut

/-- R31: no command reads `idle_byte`: with another idle value in the register, every command does the
same in everything but that register, which keeps the other value unless a CFG.LOAD writes it. -/
def Obligations.IdleByteIsReadByNoCommand : Prop :=
  ∀ (i : Instr) (s t : State) (other : Byte), exec i s = .next t →
    ∃ u, exec i { s with cfg := { s.cfg with idleByte := other } } = .next u ∧
      { u with cfg := { u.cfg with idleByte := t.cfg.idleByte } } = t ∧
      (i.opcode ≠ .cfgLoad → u.cfg.idleByte = other)

/-! ## The Deframer's micro-steps -/

/-- R11, R173: the detector's outputs, for every buffer. -/
def Obligations.DetectorOutputsAreExact : Prop :=
  ∀ (c : PacketFormat) (buf : List Byte),
    (detectFirst c buf = none ↔ c.S ∉ buf) ∧
    (∀ k, detectFirst c buf = some k ↔
      buf[k]? = some c.S ∧ ∀ j < k, buf[j]? ≠ some c.S) ∧
    (detectLead c buf = true ↔ buf[0]? = some c.S) ∧
    (detectLead c buf = true ↔ detectFirst c buf = some 0) ∧
    (detectTrail c buf = true ↔ buf[c.P + 1]? = some c.S)

/-- R172, R178: below `P + 2` bytes the micro-step suspends and keeps the buffer. -/
def Obligations.ShortBufferSuspends : Prop :=
  ∀ (pol : NoSentPolicy) (c : PacketFormat) (buf : List Byte), buf.length < c.P + 2 →
    rxStep pol c buf = (.suspend, buf)

/-- R174: a window's worth of bytes with no sentinel is discarded whole, and the ingest ends. -/
def Obligations.NoSentinelDropsTheWholeBuffer : Prop :=
  ∀ (c : PacketFormat) (buf : List Byte), c.P + 2 ≤ buf.length → (∀ b ∈ buf, b ≠ c.S) →
    rxRun Config.noSentPolicy c buf = ([.dropAll], [])

/-- R175: exactly the bytes before the first sentinel are dropped. -/
def Obligations.GarbageBeforeTheSentinelIsDropped : Prop :=
  ∀ (pol : NoSentPolicy) (c : PacketFormat) (garbage rest : List Byte),
    garbage ≠ [] → (∀ b ∈ garbage, b ≠ c.S) → c.P + 2 ≤ (garbage ++ c.S :: rest).length →
    rxStep pol c (garbage ++ c.S :: rest) = (.align garbage.length, c.S :: rest)

/-- R176: a window that begins and ends with the sentinel is a packet, whatever its bytes; the leader
and the body are dropped and the trailing sentinel is kept. -/
def Obligations.FramedWindowIsEmittedKeepingItsTrailer : Prop :=
  ∀ (pol : NoSentPolicy) (c : PacketFormat) (hdr dat rest : List Byte),
    hdr.length = c.H → dat.length = c.D → c.H + c.D = c.P →
    rxStep pol c ([c.S] ++ hdr ++ dat ++ [c.S] ++ rest) = (.emit hdr dat, c.S :: rest)

/-- R177: a candidate whose trailing position does not hold the sentinel loses its leading sentinel and
nothing else. -/
def Obligations.FalseMatchDropsOneByte : Prop :=
  ∀ (pol : NoSentPolicy) (c : PacketFormat) (rest : List Byte),
    c.P + 2 ≤ (c.S :: rest).length → (c.S :: rest)[c.P + 1]? ≠ some c.S →
    rxStep pol c (c.S :: rest) = (.skip1, rest)

/-- R170, R191: the loop is the micro-step taken again and again until SUSPEND or DROP_ALL, never cut
short. -/
def Obligations.LoopRepeatsTheMicroStep : Prop :=
  ∀ (pol : NoSentPolicy) (c : PacketFormat) (buf : List Byte),
    rxRun pol c buf =
      if (rxStep pol c buf).1.exitsLoop then ([(rxStep pol c buf).1], (rxStep pol c buf).2)
      else ((rxStep pol c buf).1 :: (rxRun pol c (rxStep pol c buf).2).1,
        (rxRun pol c (rxStep pol c buf).2).2)

/-- R180: every micro-step other than SUSPEND shortens the buffer, by the number of bytes its action
says, and a run is at most as many micro-steps as the buffer has bytes, then SUSPEND or DROP_ALL. -/
def Obligations.EveryMicroStepMakesProgress : Prop :=
  ∀ (pol : NoSentPolicy) (c : PacketFormat) (buf : List Byte),
    ((rxStep pol c buf).1 ≠ .suspend → (rxStep pol c buf).2.length < buf.length) ∧
    (match (rxStep pol c buf).1 with
      | .suspend => (rxStep pol c buf).2 = buf
      | .dropAll => c.P + 2 ≤ buf.length ∧ (pol = .discardAll → (rxStep pol c buf).2 = [])
      | .align k => 1 ≤ k ∧ (rxStep pol c buf).2.length + k = buf.length
      | .skip1 => (rxStep pol c buf).2.length + 1 = buf.length
      | .emit _ _ => (rxStep pol c buf).2.length + (c.P + 1) = buf.length) ∧
    ∃ (before : List RxAction) (last : RxAction), (rxRun pol c buf).1 = before ++ [last] ∧
      last.exitsLoop = true ∧ (∀ a ∈ before, a.exitsLoop = false) ∧ before.length ≤ buf.length

/-! ## RX.INGEST and RX.RESET -/

/-- R170, R171: RX.INGEST of a chunk of 1 to CHUNK_MAX bytes appends it, runs the loop, delivers the
packets in order and answers OK with their number; nothing else changes. -/
def Obligations.RxIngestDeliversWhatTheLoopEmits : Prop :=
  ∀ (chunk : List Byte) (s : State), s.active = .rx → chunk ≠ [] →
    chunk.length ≤ s.params.chunkMax →
    exec (.rxIngest chunk) s = .next { s with
      rbuf := (rxRun .discardAll s.cfg (s.rbuf ++ chunk)).2,
      trace := s.trace ++
        (packetsOf (rxRun .discardAll s.cfg (s.rbuf ++ chunk)).1).map (fun p => .rxOut p.1 p.2) ++
        [.response .rx (0x00 ::
          le16OfNat (packetsOf (rxRun .discardAll s.cfg (s.rbuf ++ chunk)).1).length)] }

/-- R171, R227: an empty chunk answers OK with no packets and changes nothing. -/
def Obligations.EmptyChunkIsANoDataRound : Prop :=
  ∀ s : State, s.active = .rx →
    exec (.rxIngest []) s = .next { s with
      trace := s.trace ++ [.response .rx [0x00, 0x00, 0x00]] }

/-- R171, R226: a chunk longer than CHUNK_MAX answers CHUNK_OVERFLOW with its length, appends nothing
and changes nothing. -/
def Obligations.OverlongChunkIsRefusedWhole : Prop :=
  ∀ (chunk : List Byte) (s : State), s.active = .rx → s.params.chunkMax < chunk.length →
    exec (.rxIngest chunk) s = .next { s with
      trace := s.trace ++ [.response .rx (0x04 :: le16OfNat chunk.length)] }

/-- R183: RX.RESET empties the residual buffer, keeps the configuration and answers OK. -/
def Obligations.RxResetEmptiesTheResidualBuffer : Prop :=
  ∀ s : State, s.active = .rx →
    exec .rxReset s = .next { s with
      rbuf := [], trace := s.trace ++ [.response .rx [0x00]] }

/-- R86, R88, R111: between commands of a legal state, RX.INGEST delivers only packets of `H` header and
`D` data bytes, before its response, and the 16-bit count it answers is exactly their number. -/
def Obligations.IngestedPacketsHaveTheFormatsSizes : Prop :=
  ∀ (chunk : List Byte) (s : State), s.Inv → s.active = .rx → chunk.length ≤ s.params.chunkMax →
    ∃ (t : State) (packets : List (List Byte × List Byte)) (lo hi : Byte),
      exec (.rxIngest chunk) s = .next t ∧
      t.trace = s.trace ++ packets.map (fun p => .rxOut p.1 p.2) ++
        [.response .rx [0x00, lo, hi]] ∧
      (∀ p ∈ packets, p.1.length = s.cfg.H ∧ p.2.length = s.cfg.D) ∧
      (readLe16 lo hi).toNat = packets.length

/-- R26: during an accepted RX.INGEST the buffer never holds more than `P + 1 + L` bytes, after any
number of micro-steps, so a capacity of `PMAX + 1 + CHUNK_MAX` is never exceeded. -/
def Obligations.ResidualBufferNeverOverflows : Prop :=
  ∀ (s : State) (chunk : List Byte) (n : Nat), s.Inv → chunk.length ≤ s.params.chunkMax →
    (s.rbuf ++ chunk).length ≤ s.cfg.P + 1 + chunk.length ∧
    (rxLoop Config.noSentPolicy s.cfg n (s.rbuf ++ chunk)).2.length ≤ s.cfg.P + 1 + chunk.length ∧
    s.cfg.P + 1 + chunk.length ≤ s.params.rbufCap

/-- R8: the Deframer only compares bytes with the sentinel: any change of the other bytes that keeps them
different from the sentinel changes the packets by that change alone. -/
def Obligations.DeframerOnlyComparesWithTheSentinel : Prop :=
  ∀ (pol : NoSentPolicy) (c : PacketFormat) (f : Byte → Byte) (buf : List Byte),
    (∀ b, f b = c.S ↔ b = c.S) →
    packetsOf (rxRun pol c (buf.map f)).1 =
      (packetsOf (rxRun pol c buf).1).map (fun p => (p.1.map f, p.2.map f)) ∧
    (rxRun pol c (buf.map f)).2 = (rxRun pol c buf).2.map f

/-! ## Streams -/

/-- R187: however a stream is cut into RX.INGEST commands, the packets emitted are the emissions of the
candidate chain over the stream, and what is left in `rbuf` is a tail of the stream that begins at or
before the pending candidate, with no sentinel in between. -/
def Obligations.PacketsAreTheCandidateChains : Prop :=
  ∀ (s : State) (chunks : List (List Byte)), RxReady s chunks →
    ∃ t, ingestAll chunks s = .next t ∧
      t.rxOut = s.rxOut ++ chainPackets s.cfg chunks.flatten ∧
      ∃ m, t.rbuf = chunks.flatten.drop m ∧ m ≤ chainStop s.cfg chunks.flatten ∧
        s.cfg.S ∉ slice chunks.flatten m (chainStop s.cfg chunks.flatten)

/-- R179: two ways of cutting one stream into RX.INGEST commands emit the same packets in the same
order. -/
def Obligations.ChunkBoundariesDoNotChangePackets : Prop :=
  ∀ (s t1 t2 : State) (chunks1 chunks2 : List (List Byte)),
    RxReady s chunks1 → RxReady s chunks2 → chunks1.flatten = chunks2.flatten →
    ingestAll chunks1 s = .next t1 → ingestAll chunks2 s = .next t2 → t1.rxOut = t2.rxOut

/-- R181: packets are emitted in increasing order of the stream offset of their leading sentinel, each
once, and each is a window of the stream between two sentinels. -/
def Obligations.PacketsLeaveInStreamOrder : Prop :=
  ∀ (s : State) (chunks : List (List Byte)), RxReady s chunks →
    ∃ offsets : List Nat, offsets.Pairwise (· < ·) ∧
      (∀ q ∈ offsets, chunks.flatten[q]? = some s.cfg.S ∧
        chunks.flatten[q + s.cfg.P + 1]? = some s.cfg.S) ∧
      Emits s chunks (offsets.map (packetAt s.cfg chunks.flatten))

/-- R186: a frame in the chain is emitted by the RX.INGEST whose chunk holds its trailing sentinel; no
later byte is needed. -/
def Obligations.FrameIsEmittedWithItsTrailer : Prop :=
  ∀ (s t : State) (chunks : List (List Byte)) (chunk : List Byte), RxReady s (chunks ++ [chunk]) →
    ingestAll chunks s = .next t →
    Emits t [chunk] ((((chain s.cfg (chunks.flatten ++ chunk)).1.filter
      fun q => chunks.flatten.length ≤ q + s.cfg.P + 1)).map
        (packetAt s.cfg (chunks.flatten ++ chunk)))

/-- R182: the packets are the same under both step 2.b policies and every chunking; the retained tail
is at most `P` bytes long, none of them the sentinel. -/
def Obligations.NoSentinelPolicyDoesNotChangePackets : Prop :=
  (∀ (c : PacketFormat) (chunks1 chunks2 : List (List Byte)), c.H ≤ c.P →
    chunks1.flatten = chunks2.flatten →
    (feed .retainTail c [] chunks1).1 = (feed .discardAll c [] chunks2).1) ∧
  (∀ (c : PacketFormat) (buf : List Byte), (rxStep .retainTail c buf).1 = .dropAll →
    (rxStep .retainTail c buf).2.length ≤ c.P ∧ c.S ∉ (rxStep .retainTail c buf).2)

/-- R188: one frame with idle padding around it, with an idle byte other than the sentinel, emits exactly
its packet in every chunking. -/
def Obligations.FrameWithIdlePaddingRoundTrips : Prop :=
  ∀ (s : State) (chunks : List (List Byte)) (hdr dat : List Byte) (a b : Nat), RxReady s chunks →
    s.cfg.I ≠ s.cfg.S → hdr.length = s.cfg.H → dat.length = s.cfg.D →
    chunks.flatten =
      List.replicate a s.cfg.I ++ frame s.cfg hdr dat ++ List.replicate b s.cfg.I →
    Emits s chunks [(hdr, dat)]

/-- R189: noise none of whose sentinels pairs with another one `P + 1` bytes on is discarded, and the
frame after it is emitted, in every chunking; only the frame's trailing sentinel is left. -/
def Obligations.FrameAfterNoiseIsFound : Prop :=
  ∀ (s : State) (chunks : List (List Byte)) (noise hdr dat : List Byte), RxReady s chunks →
    hdr.length = s.cfg.H → dat.length = s.cfg.D →
    chunks.flatten = noise ++ frame s.cfg hdr dat →
    (∀ p < noise.length, chunks.flatten[p]? = some s.cfg.S →
      chunks.flatten[p + s.cfg.P + 1]? ≠ some s.cfg.S) →
    ∃ t, ingestAll chunks s = .next t ∧ t.rxOut = s.rxOut ++ [(hdr, dat)] ∧ t.rbuf = [s.cfg.S]

/-- R190: a damaged frame, its trailer lost and its body holding sentinels, emits nothing: its leading
sentinel and every embedded one, as a candidate, is rejected by a SKIP1 that drops one byte. The genuine
frame that follows it at once is emitted. -/
def Obligations.DamagedFrameDoesNotHideTheNext : Prop :=
  ∀ (s : State) (chunks : List (List Byte)) (rest hdr dat : List Byte), RxReady s chunks →
    hdr.length = s.cfg.H → dat.length = s.cfg.D → s.cfg.P + 2 ≤ (s.cfg.S :: rest).length →
    chunks.flatten = (s.cfg.S :: rest) ++ frame s.cfg hdr dat →
    (∀ p < (s.cfg.S :: rest).length, chunks.flatten[p]? = some s.cfg.S →
      chunks.flatten[p + s.cfg.P + 1]? ≠ some s.cfg.S) →
    (∀ p < (s.cfg.S :: rest).length, chunks.flatten[p]? = some s.cfg.S →
      rxStep Config.noSentPolicy s.cfg (chunks.flatten.drop p) =
        (.skip1, chunks.flatten.drop (p + 1))) ∧
    Emits s chunks [(hdr, dat)]

/-- Frames that share their sentinels make a stream of `n * (P + 1) + 1` bytes (30_encoding.md section 6),
which emits every packet in order, in every chunking. R91 promises the packets where no body makes a false
match; that the bodies may hold anything follows from R176 and R187: from the start of a session the
chain goes from each shared sentinel to the next, so no byte of a body becomes a candidate. -/
def Obligations.SharedSentinelFramesAreAllEmitted : Prop :=
  ∀ (s : State) (chunks bodies : List (List Byte)), RxReady s chunks →
    (∀ body ∈ bodies, body.length = s.cfg.P) →
    chunks.flatten = sharedStream s.cfg bodies →
    chunks.flatten.length = bodies.length * (s.cfg.P + 1) + 1 ∧
    Emits s chunks (bodies.map (splitBody s.cfg))

/-- R258: of two frames sent back to back, each with its own sentinels, frame 1's retained trailer, at
offset `P + 1`, is a candidate. When frame 2's last body byte is not the sentinel, one SKIP1 drops the
trailer, the only false match of the stream, and both packets are emitted. When it is, the trailer and that
byte frame a false packet, which takes frame 2's leader with it, and frame 2 is lost. The packets are the
same in every chunking; the micro-steps are those of the stream in one piece. -/
def Obligations.UnsharedFramesCostOneFalseMatch : Prop :=
  ∀ (s : State) (chunks : List (List Byte)) (b1 b2 : List Byte), RxReady s chunks →
    b1.length = s.cfg.P → b2.length = s.cfg.P →
    chunks.flatten = ([s.cfg.S] ++ b1 ++ [s.cfg.S]) ++ ([s.cfg.S] ++ b2 ++ [s.cfg.S]) →
    (b2.getLast? ≠ some s.cfg.S →
      rxStep Config.noSentPolicy s.cfg (chunks.flatten.drop (s.cfg.P + 1)) =
        (.skip1, chunks.flatten.drop (s.cfg.P + 2)) ∧
      rxRun Config.noSentPolicy s.cfg chunks.flatten =
        ([emitBody s.cfg b1, .skip1, emitBody s.cfg b2, .suspend], [s.cfg.S]) ∧
      Emits s chunks [splitBody s.cfg b1, splitBody s.cfg b2]) ∧
    (b2.getLast? = some s.cfg.S →
      rxStep Config.noSentPolicy s.cfg (chunks.flatten.drop (s.cfg.P + 1)) =
        (emitBody s.cfg (s.cfg.S :: b2.take (s.cfg.P - 1)),
          chunks.flatten.drop (2 * (s.cfg.P + 1))) ∧
      rxRun Config.noSentPolicy s.cfg chunks.flatten =
        ([emitBody s.cfg b1, emitBody s.cfg (s.cfg.S :: b2.take (s.cfg.P - 1)), .suspend],
          [s.cfg.S, s.cfg.S]) ∧
      Emits s chunks [splitBody s.cfg b1, splitBody s.cfg (s.cfg.S :: b2.take (s.cfg.P - 1))])

/-- R262: with an idle byte equal to the sentinel, `P + 2` bytes of idle fill frame one all-sentinel
packet. -/
def Obligations.IdleFillOfSentinelsFramesAPacket : Prop :=
  ∀ (s : State) (chunks : List (List Byte)), RxReady s chunks → s.cfg.I = s.cfg.S →
    chunks.flatten = List.replicate (s.cfg.P + 2) s.cfg.I →
    Emits s chunks [(List.replicate s.cfg.H s.cfg.S, List.replicate s.cfg.D s.cfg.S)]

/-! ## Interleaving and the assembler -/

/-- R53: the steps of RX and TX may be interleaved in any way: two lists of the same RX and TX turns
show the same responses, packets and writes and leave the same configuration, residual buffer and
waiting commands. The turns are the model's form of an interleaving (log entry 2). -/
def Obligations.RxAndTxStepsCommute : Prop :=
  ∀ (s : State) (turns1 turns2 : List Turn), turns1.Perm turns2 →
    (∀ turn ∈ turns1, turn = .serve .rx ∨ turn = .serve .tx) →
    ∃ t1 t2, steps turns1.length { s with schedule := turns1 } = .next t1 ∧
      steps turns2.length { s with schedule := turns2 } = .next t2 ∧
      t1.observe = t2.observe ∧ (∀ a, t1.pending a = t2.pending a)

/-- R96, R114: the expansions of the pseudo-instructions. `CFG.DEFAULT` loads the default format under
every legal PMAX; `TX.SEND b` frames a body of `P` bytes and is answered INVALID_PACKET_SIZE otherwise, with
lengths this statement leaves open (log entry 18); the pieces of `RX.FEED`, for rising cut points within the
stream, are RX.INGEST commands whose chunks make up the stream. -/
def Obligations.PseudoInstructionsExpandAsStated : Prop :=
  (∀ s : State, s.active = .ctrl → s.params.Legal →
    exec cfgDefault s = .next { s with
      cfg := PacketFormat.default, rbuf := [], trace := s.trace ++ [.response .ctrl [0x00]] }) ∧
  (∀ (s : State) (b : List Byte), s.active = .tx → s.cfg.Legal s.params → b.length = s.cfg.P →
    ∃ t, exec (txSend s.cfg b) s = .next t ∧
      t.txBuffers = s.txBuffers ++ [[s.cfg.S] ++ b ++ [s.cfg.S]]) ∧
  (∀ (s : State) (b : List Byte), s.active = .tx → s.cfg.Legal s.params → b.length ≠ s.cfg.P →
    ∃ info, exec (txSend s.cfg b) s = .next { s with
      trace := s.trace ++ [.response .tx (0x01 :: info)] }) ∧
  (∀ (st : List Byte) (cuts : List Nat), cuts.Pairwise (· ≤ ·) → (∀ k ∈ cuts, k ≤ st.length) →
    ∃ chunks : List (List Byte), rxFeed st cuts = chunks.map Instr.rxIngest ∧ chunks.flatten = st)
end

