-- ==== Sys2Proof/Laws/Decode.lean ====
section
/-! SUPPORT. The fields and the opcode map of 30_encoding.md, said once: what a length field is worth
(R85), which byte selects which command (R83), and what a counted sequence reads as (R84). -/

namespace Sys2Proof

/-- R85: the value of a length field. -/
theorem readLe16_toNat (lo hi : Byte) : (readLe16 lo hi).toNat = lo.toNat + 256 * hi.toNat := by
  have hlo := lo.isLt
  have hhi := hi.isLt
  simp [readLe16, BitVec.toNat_add, BitVec.toNat_mul]
  omega

/-- An LE16 has two bytes. -/
@[simp] theorem le16_length (v : Half) : (le16 v).length = 2 := rfl

/-- An LE16 of a length has two bytes. -/
@[simp] theorem le16OfNat_length (n : Nat) : (le16OfNat n).length = 2 := rfl

/-- A counted sequence has its two length bytes more. -/
@[simp] theorem counted_length (s : List Byte) : (counted s).length = 2 + s.length := by
  simp [counted]

/-- R83: an opcode byte selects a command exactly when it is that command's byte. -/
theorem ofByte?_eq_some_iff (opc : Byte) (k : Opcode) : Opcode.ofByte? opc = some k ↔ opc = k.byte := by
  constructor
  · revert opc
    cases k <;> decide
  · rintro rfl
    cases k <;> decide

/-- Reading a counted sequence, said once: a length field, that many bytes, and the rest. -/
theorem takeCounted_eq_some {d s rest : List Byte} (h : takeCounted d = some (s, rest)) :
    ∃ lo hi, d = lo :: hi :: (s ++ rest) ∧ s.length = (readLe16 lo hi).toNat := by
  match d, h with
  | lo :: hi :: t, h =>
    simp only [takeCounted] at h
    split at h
    · rename_i hle
      simp only [Option.some.injEq, Prod.mk.injEq] at h
      obtain ⟨rfl, rfl⟩ := h
      exact ⟨lo, hi, by simp, by simp [hle]⟩
    · simp at h

/-- The length field at the front of a counted sequence whose length fits is that length. -/
theorem lengthFieldAt_counted (pre s rest : List Byte) (h : s.length < 65536) :
    lengthFieldAt (pre ++ (counted s ++ rest)) pre.length = some s.length := by
  have hlo : (pre ++ (counted s ++ rest))[pre.length]? =
      some ((BitVec.ofNat 16 s.length).extractLsb' 0 8) := by
    simp [counted, le16OfNat, le16]
  have hhi : (pre ++ (counted s ++ rest))[pre.length + 1]? =
      some ((BitVec.ofNat 16 s.length).extractLsb' 8 8) := by
    simp [counted, le16OfNat, le16]
  have hval : (readLe16 ((BitVec.ofNat 16 s.length).extractLsb' 0 8)
      ((BitVec.ofNat 16 s.length).extractLsb' 8 8)).toNat = s.length := by
    rw [readLe16_toNat]
    simp [Nat.shiftRight_eq_div_pow]
    omega
  simp only [lengthFieldAt, hlo, hhi, hval]

end Sys2Proof
end

