-- ==== Sys2Proof/Laws/Deframer.lean ====
section
/-! SUPPORT. The micro-step of the Deframer, said once: which of its five cases holds, what it did and
what it left (42_deframer.md R191). Later proofs take it apart with this lemma and do not unfold it. -/

namespace Sys2Proof.Machine

/-- Exactly one of R191's cases applies, and its result is that case's. -/
theorem rxStep_cases (pol : NoSentPolicy) (c : PacketFormat) (buf : List Byte) :
    (buf.length < c.P + 2 ∧ rxStep pol c buf = (.suspend, buf)) ∨
    (c.P + 2 ≤ buf.length ∧ detectFirst c buf = none ∧
      rxStep pol c buf = (.dropAll, noSentRest pol c buf)) ∨
    (c.P + 2 ≤ buf.length ∧ ∃ k, detectFirst c buf = some k ∧ 0 < k ∧
      rxStep pol c buf = (.align k, buf.drop k)) ∨
    (c.P + 2 ≤ buf.length ∧ detectFirst c buf = some 0 ∧ detectTrail c buf = true ∧
      rxStep pol c buf =
        (.emit (slice buf 1 (1 + c.H)) (slice buf (1 + c.H) (1 + c.P)), buf.drop (c.P + 1))) ∨
    (c.P + 2 ≤ buf.length ∧ detectFirst c buf = some 0 ∧ detectTrail c buf = false ∧
      rxStep pol c buf = (.skip1, buf.drop 1)) := by
  by_cases hlen : buf.length < c.P + 2
  · exact .inl ⟨hlen, by simp [rxStep, windowLength, hlen]⟩
  · have hlen' : c.P + 2 ≤ buf.length := by omega
    rcases hfirst : detectFirst c buf with _ | k
    · exact .inr (.inl ⟨hlen', rfl, by simp [rxStep, windowLength, hlen, hfirst]⟩)
    · by_cases hk : 0 < k
      · exact .inr (.inr (.inl ⟨hlen', k, rfl, hk, by simp [rxStep, windowLength, hlen, hfirst, hk]⟩))
      · obtain rfl : k = 0 := by omega
        rcases htrail : detectTrail c buf with _ | _
        · exact .inr (.inr (.inr (.inr
            ⟨hlen', rfl, rfl, by simp [rxStep, windowLength, hlen, hfirst, htrail]⟩)))
        · exact .inr (.inr (.inr (.inl
            ⟨hlen', rfl, rfl, by simp [rxStep, windowLength, hlen, hfirst, htrail]⟩)))

/-- The loop with no micro-step left does nothing. -/
@[simp] theorem rxLoop_zero (pol : NoSentPolicy) (c : PacketFormat) (buf : List Byte) :
    rxLoop pol c 0 buf = ([], buf) := rfl

/-- One round of the loop when the micro-step exits. -/
theorem rxLoop_succ_of_exits {pol : NoSentPolicy} {c : PacketFormat} {buf : List Byte}
    (h : (rxStep pol c buf).1.exitsLoop = true) (fuel : Nat) :
    rxLoop pol c (fuel + 1) buf = ([(rxStep pol c buf).1], (rxStep pol c buf).2) := by
  simp [rxLoop, h]

/-- One round of the loop when the micro-step goes on. -/
theorem rxLoop_succ_of_goes_on {pol : NoSentPolicy} {c : PacketFormat} {buf : List Byte}
    (h : (rxStep pol c buf).1.exitsLoop = false) (fuel : Nat) :
    rxLoop pol c (fuel + 1) buf =
      ((rxStep pol c buf).1 :: (rxLoop pol c fuel (rxStep pol c buf).2).1,
        (rxLoop pol c fuel (rxStep pol c buf).2).2) := by
  simp [rxLoop, h]

/-- The packets of a list of micro-steps, micro-step by micro-step. -/
@[simp] theorem packetsOf_nil : packetsOf [] = [] := rfl
@[simp] theorem packetsOf_suspend (l : List RxAction) : packetsOf (.suspend :: l) = packetsOf l := rfl
@[simp] theorem packetsOf_dropAll (l : List RxAction) : packetsOf (.dropAll :: l) = packetsOf l := rfl
@[simp] theorem packetsOf_align (k : Nat) (l : List RxAction) :
    packetsOf (.align k :: l) = packetsOf l := rfl
@[simp] theorem packetsOf_skip1 (l : List RxAction) : packetsOf (.skip1 :: l) = packetsOf l := rfl
@[simp] theorem packetsOf_emit (h d : List Byte) (l : List RxAction) :
    packetsOf (.emit h d :: l) = (h, d) :: packetsOf l := rfl

end Sys2Proof.Machine
end

