-- ==== Sys2Proof/Laws/State.lean ====
section
/-! SUPPORT. One lemma per field per named update of the state, true by unfolding the update once, so that
no later proof unfolds a record update. -/

namespace Sys2Proof.Machine

variable (s : State)

/-! ### rbufAppend -/

@[simp] theorem State.rbufAppend_cfg (x : List Byte) : (s.rbufAppend x).cfg = s.cfg := rfl
@[simp] theorem State.rbufAppend_rbuf (x : List Byte) : (s.rbufAppend x).rbuf = s.rbuf ++ x := rfl
@[simp] theorem State.rbufAppend_params (x : List Byte) : (s.rbufAppend x).params = s.params := rfl
@[simp] theorem State.rbufAppend_cmdCtrl (x : List Byte) : (s.rbufAppend x).cmdCtrl = s.cmdCtrl := rfl
@[simp] theorem State.rbufAppend_cmdRx (x : List Byte) : (s.rbufAppend x).cmdRx = s.cmdRx := rfl
@[simp] theorem State.rbufAppend_cmdTx (x : List Byte) : (s.rbufAppend x).cmdTx = s.cmdTx := rfl
@[simp] theorem State.rbufAppend_schedule (x : List Byte) : (s.rbufAppend x).schedule = s.schedule := rfl
@[simp] theorem State.rbufAppend_active (x : List Byte) : (s.rbufAppend x).active = s.active := rfl
@[simp] theorem State.rbufAppend_answers (x : List Byte) : (s.rbufAppend x).answers = s.answers := rfl
@[simp] theorem State.rbufAppend_trace (x : List Byte) : (s.rbufAppend x).trace = s.trace := rfl

/-! ### rbufClear -/

@[simp] theorem State.rbufClear_cfg : (s.rbufClear).cfg = s.cfg := rfl
@[simp] theorem State.rbufClear_rbuf : (s.rbufClear).rbuf = [] := rfl
@[simp] theorem State.rbufClear_params : (s.rbufClear).params = s.params := rfl
@[simp] theorem State.rbufClear_cmdCtrl : (s.rbufClear).cmdCtrl = s.cmdCtrl := rfl
@[simp] theorem State.rbufClear_cmdRx : (s.rbufClear).cmdRx = s.cmdRx := rfl
@[simp] theorem State.rbufClear_cmdTx : (s.rbufClear).cmdTx = s.cmdTx := rfl
@[simp] theorem State.rbufClear_schedule : (s.rbufClear).schedule = s.schedule := rfl
@[simp] theorem State.rbufClear_active : (s.rbufClear).active = s.active := rfl
@[simp] theorem State.rbufClear_answers : (s.rbufClear).answers = s.answers := rfl
@[simp] theorem State.rbufClear_trace : (s.rbufClear).trace = s.trace := rfl

/-! ### setRbuf -/

@[simp] theorem State.setRbuf_cfg (x : List Byte) : (s.setRbuf x).cfg = s.cfg := rfl
@[simp] theorem State.setRbuf_rbuf (x : List Byte) : (s.setRbuf x).rbuf = x := rfl
@[simp] theorem State.setRbuf_params (x : List Byte) : (s.setRbuf x).params = s.params := rfl
@[simp] theorem State.setRbuf_cmdCtrl (x : List Byte) : (s.setRbuf x).cmdCtrl = s.cmdCtrl := rfl
@[simp] theorem State.setRbuf_cmdRx (x : List Byte) : (s.setRbuf x).cmdRx = s.cmdRx := rfl
@[simp] theorem State.setRbuf_cmdTx (x : List Byte) : (s.setRbuf x).cmdTx = s.cmdTx := rfl
@[simp] theorem State.setRbuf_schedule (x : List Byte) : (s.setRbuf x).schedule = s.schedule := rfl
@[simp] theorem State.setRbuf_active (x : List Byte) : (s.setRbuf x).active = s.active := rfl
@[simp] theorem State.setRbuf_answers (x : List Byte) : (s.setRbuf x).answers = s.answers := rfl
@[simp] theorem State.setRbuf_trace (x : List Byte) : (s.setRbuf x).trace = s.trace := rfl

/-! ### setCfg -/

@[simp] theorem State.setCfg_cfg (x : PacketFormat) : (s.setCfg x).cfg = x := rfl
@[simp] theorem State.setCfg_rbuf (x : PacketFormat) : (s.setCfg x).rbuf = s.rbuf := rfl
@[simp] theorem State.setCfg_params (x : PacketFormat) : (s.setCfg x).params = s.params := rfl
@[simp] theorem State.setCfg_cmdCtrl (x : PacketFormat) : (s.setCfg x).cmdCtrl = s.cmdCtrl := rfl
@[simp] theorem State.setCfg_cmdRx (x : PacketFormat) : (s.setCfg x).cmdRx = s.cmdRx := rfl
@[simp] theorem State.setCfg_cmdTx (x : PacketFormat) : (s.setCfg x).cmdTx = s.cmdTx := rfl
@[simp] theorem State.setCfg_schedule (x : PacketFormat) : (s.setCfg x).schedule = s.schedule := rfl
@[simp] theorem State.setCfg_active (x : PacketFormat) : (s.setCfg x).active = s.active := rfl
@[simp] theorem State.setCfg_answers (x : PacketFormat) : (s.setCfg x).answers = s.answers := rfl
@[simp] theorem State.setCfg_trace (x : PacketFormat) : (s.setCfg x).trace = s.trace := rfl

/-! ### deliver -/

@[simp] theorem State.deliver_cfg (x : Event) : (s.deliver x).cfg = s.cfg := rfl
@[simp] theorem State.deliver_rbuf (x : Event) : (s.deliver x).rbuf = s.rbuf := rfl
@[simp] theorem State.deliver_params (x : Event) : (s.deliver x).params = s.params := rfl
@[simp] theorem State.deliver_cmdCtrl (x : Event) : (s.deliver x).cmdCtrl = s.cmdCtrl := rfl
@[simp] theorem State.deliver_cmdRx (x : Event) : (s.deliver x).cmdRx = s.cmdRx := rfl
@[simp] theorem State.deliver_cmdTx (x : Event) : (s.deliver x).cmdTx = s.cmdTx := rfl
@[simp] theorem State.deliver_schedule (x : Event) : (s.deliver x).schedule = s.schedule := rfl
@[simp] theorem State.deliver_active (x : Event) : (s.deliver x).active = s.active := rfl
@[simp] theorem State.deliver_answers (x : Event) : (s.deliver x).answers = s.answers := rfl
@[simp] theorem State.deliver_trace (x : Event) : (s.deliver x).trace = s.trace ++ [x] := rfl

/-! ### emitAll -/

@[simp] theorem State.emitAll_cfg (x : List (List Byte × List Byte)) : (s.emitAll x).cfg = s.cfg := rfl
@[simp] theorem State.emitAll_rbuf (x : List (List Byte × List Byte)) : (s.emitAll x).rbuf = s.rbuf := rfl
@[simp] theorem State.emitAll_params (x : List (List Byte × List Byte)) : (s.emitAll x).params = s.params := rfl
@[simp] theorem State.emitAll_cmdCtrl (x : List (List Byte × List Byte)) : (s.emitAll x).cmdCtrl = s.cmdCtrl := rfl
@[simp] theorem State.emitAll_cmdRx (x : List (List Byte × List Byte)) : (s.emitAll x).cmdRx = s.cmdRx := rfl
@[simp] theorem State.emitAll_cmdTx (x : List (List Byte × List Byte)) : (s.emitAll x).cmdTx = s.cmdTx := rfl
@[simp] theorem State.emitAll_schedule (x : List (List Byte × List Byte)) : (s.emitAll x).schedule = s.schedule := rfl
@[simp] theorem State.emitAll_active (x : List (List Byte × List Byte)) : (s.emitAll x).active = s.active := rfl
@[simp] theorem State.emitAll_answers (x : List (List Byte × List Byte)) : (s.emitAll x).answers = s.answers := rfl
@[simp] theorem State.emitAll_trace (x : List (List Byte × List Byte)) : (s.emitAll x).trace = s.trace ++ x.map fun p => Event.rxOut p.1 p.2 := rfl

/-! ### write -/

@[simp] theorem State.write_cfg (x : List Byte) : (s.write x).cfg = s.cfg := rfl
@[simp] theorem State.write_rbuf (x : List Byte) : (s.write x).rbuf = s.rbuf := rfl
@[simp] theorem State.write_params (x : List Byte) : (s.write x).params = s.params := rfl
@[simp] theorem State.write_cmdCtrl (x : List Byte) : (s.write x).cmdCtrl = s.cmdCtrl := rfl
@[simp] theorem State.write_cmdRx (x : List Byte) : (s.write x).cmdRx = s.cmdRx := rfl
@[simp] theorem State.write_cmdTx (x : List Byte) : (s.write x).cmdTx = s.cmdTx := rfl
@[simp] theorem State.write_schedule (x : List Byte) : (s.write x).schedule = s.schedule := rfl
@[simp] theorem State.write_active (x : List Byte) : (s.write x).active = s.active := rfl
@[simp] theorem State.write_answers (x : List Byte) : (s.write x).answers = s.answers.tail := rfl
@[simp] theorem State.write_trace (x : List Byte) : (s.write x).trace = s.trace ++ [.txOut x s.nextAnswer] := rfl

/-! ### respond -/

@[simp] theorem State.respond_cfg (x : List Byte) : (s.respond x).cfg = s.cfg := rfl
@[simp] theorem State.respond_rbuf (x : List Byte) : (s.respond x).rbuf = s.rbuf := rfl
@[simp] theorem State.respond_params (x : List Byte) : (s.respond x).params = s.params := rfl
@[simp] theorem State.respond_cmdCtrl (x : List Byte) : (s.respond x).cmdCtrl = s.cmdCtrl := rfl
@[simp] theorem State.respond_cmdRx (x : List Byte) : (s.respond x).cmdRx = s.cmdRx := rfl
@[simp] theorem State.respond_cmdTx (x : List Byte) : (s.respond x).cmdTx = s.cmdTx := rfl
@[simp] theorem State.respond_schedule (x : List Byte) : (s.respond x).schedule = s.schedule := rfl
@[simp] theorem State.respond_active (x : List Byte) : (s.respond x).active = s.active := rfl
@[simp] theorem State.respond_answers (x : List Byte) : (s.respond x).answers = s.answers := rfl
@[simp] theorem State.respond_trace (x : List Byte) : (s.respond x).trace = s.trace ++ [.response s.active x] := rfl

/-! ### raise -/

@[simp] theorem State.raise_cfg (x : CommandError) : (s.raise x).cfg = s.cfg := rfl
@[simp] theorem State.raise_rbuf (x : CommandError) : (s.raise x).rbuf = s.rbuf := rfl
@[simp] theorem State.raise_params (x : CommandError) : (s.raise x).params = s.params := rfl
@[simp] theorem State.raise_cmdCtrl (x : CommandError) : (s.raise x).cmdCtrl = s.cmdCtrl := rfl
@[simp] theorem State.raise_cmdRx (x : CommandError) : (s.raise x).cmdRx = s.cmdRx := rfl
@[simp] theorem State.raise_cmdTx (x : CommandError) : (s.raise x).cmdTx = s.cmdTx := rfl
@[simp] theorem State.raise_schedule (x : CommandError) : (s.raise x).schedule = s.schedule := rfl
@[simp] theorem State.raise_active (x : CommandError) : (s.raise x).active = s.active := rfl
@[simp] theorem State.raise_answers (x : CommandError) : (s.raise x).answers = s.answers := rfl
@[simp] theorem State.raise_trace (x : CommandError) : (s.raise x).trace = s.trace ++ [.response s.active x.response] := rfl

/-! ### raiseNotServed -/

@[simp] theorem State.raiseNotServed_cfg (x : Opcode) : (s.raiseNotServed x).cfg = s.cfg := rfl
@[simp] theorem State.raiseNotServed_rbuf (x : Opcode) : (s.raiseNotServed x).rbuf = s.rbuf := rfl
@[simp] theorem State.raiseNotServed_params (x : Opcode) : (s.raiseNotServed x).params = s.params := rfl
@[simp] theorem State.raiseNotServed_cmdCtrl (x : Opcode) : (s.raiseNotServed x).cmdCtrl = s.cmdCtrl := rfl
@[simp] theorem State.raiseNotServed_cmdRx (x : Opcode) : (s.raiseNotServed x).cmdRx = s.cmdRx := rfl
@[simp] theorem State.raiseNotServed_cmdTx (x : Opcode) : (s.raiseNotServed x).cmdTx = s.cmdTx := rfl
@[simp] theorem State.raiseNotServed_schedule (x : Opcode) : (s.raiseNotServed x).schedule = s.schedule := rfl
@[simp] theorem State.raiseNotServed_active (x : Opcode) : (s.raiseNotServed x).active = s.active := rfl
@[simp] theorem State.raiseNotServed_answers (x : Opcode) : (s.raiseNotServed x).answers = s.answers := rfl
@[simp] theorem State.raiseNotServed_trace (x : Opcode) : (s.raiseNotServed x).trace = s.trace ++ [.response s.active [0x03, x.byte]] := rfl

/-! ### raiseUndecodable -/

@[simp] theorem State.raiseUndecodable_cfg (x : DecodeError) : (s.raiseUndecodable x).cfg = s.cfg := rfl
@[simp] theorem State.raiseUndecodable_rbuf (x : DecodeError) : (s.raiseUndecodable x).rbuf = s.rbuf := rfl
@[simp] theorem State.raiseUndecodable_params (x : DecodeError) : (s.raiseUndecodable x).params = s.params := rfl
@[simp] theorem State.raiseUndecodable_cmdCtrl (x : DecodeError) : (s.raiseUndecodable x).cmdCtrl = s.cmdCtrl := rfl
@[simp] theorem State.raiseUndecodable_cmdRx (x : DecodeError) : (s.raiseUndecodable x).cmdRx = s.cmdRx := rfl
@[simp] theorem State.raiseUndecodable_cmdTx (x : DecodeError) : (s.raiseUndecodable x).cmdTx = s.cmdTx := rfl
@[simp] theorem State.raiseUndecodable_schedule (x : DecodeError) : (s.raiseUndecodable x).schedule = s.schedule := rfl
@[simp] theorem State.raiseUndecodable_active (x : DecodeError) : (s.raiseUndecodable x).active = s.active := rfl
@[simp] theorem State.raiseUndecodable_answers (x : DecodeError) : (s.raiseUndecodable x).answers = s.answers := rfl
@[simp] theorem State.raiseUndecodable_trace (x : DecodeError) : (s.raiseUndecodable x).trace = s.trace ++ [.response s.active (0x03 :: x.opcodeInfo.toList)] := rfl

/-! ### hardwareReset -/

@[simp] theorem State.hardwareReset_cfg : (s.hardwareReset).cfg = PacketFormat.default := rfl
@[simp] theorem State.hardwareReset_rbuf : (s.hardwareReset).rbuf = [] := rfl
@[simp] theorem State.hardwareReset_params : (s.hardwareReset).params = s.params := rfl
@[simp] theorem State.hardwareReset_cmdCtrl : (s.hardwareReset).cmdCtrl = s.cmdCtrl := rfl
@[simp] theorem State.hardwareReset_cmdRx : (s.hardwareReset).cmdRx = s.cmdRx := rfl
@[simp] theorem State.hardwareReset_cmdTx : (s.hardwareReset).cmdTx = s.cmdTx := rfl
@[simp] theorem State.hardwareReset_schedule : (s.hardwareReset).schedule = s.schedule := rfl
@[simp] theorem State.hardwareReset_active : (s.hardwareReset).active = s.active := rfl
@[simp] theorem State.hardwareReset_answers : (s.hardwareReset).answers = s.answers := rfl
@[simp] theorem State.hardwareReset_trace : (s.hardwareReset).trace = s.trace := rfl

/-! ### tookTurn -/

@[simp] theorem State.tookTurn_cfg : (s.tookTurn).cfg = s.cfg := rfl
@[simp] theorem State.tookTurn_rbuf : (s.tookTurn).rbuf = s.rbuf := rfl
@[simp] theorem State.tookTurn_params : (s.tookTurn).params = s.params := rfl
@[simp] theorem State.tookTurn_cmdCtrl : (s.tookTurn).cmdCtrl = s.cmdCtrl := rfl
@[simp] theorem State.tookTurn_cmdRx : (s.tookTurn).cmdRx = s.cmdRx := rfl
@[simp] theorem State.tookTurn_cmdTx : (s.tookTurn).cmdTx = s.cmdTx := rfl
@[simp] theorem State.tookTurn_schedule : (s.tookTurn).schedule = s.schedule.tail := rfl
@[simp] theorem State.tookTurn_active : (s.tookTurn).active = s.active := rfl
@[simp] theorem State.tookTurn_answers : (s.tookTurn).answers = s.answers := rfl
@[simp] theorem State.tookTurn_trace : (s.tookTurn).trace = s.trace := rfl

/-! ### setPending, tookCommand, presentNext -/

@[simp] theorem State.setPending_cfg (i : Iface) (q : List (List Byte)) :
    (s.setPending i q).cfg = s.cfg := by cases i <;> rfl
@[simp] theorem State.setPending_rbuf (i : Iface) (q : List (List Byte)) :
    (s.setPending i q).rbuf = s.rbuf := by cases i <;> rfl
@[simp] theorem State.setPending_params (i : Iface) (q : List (List Byte)) :
    (s.setPending i q).params = s.params := by cases i <;> rfl
@[simp] theorem State.setPending_schedule (i : Iface) (q : List (List Byte)) :
    (s.setPending i q).schedule = s.schedule := by cases i <;> rfl
@[simp] theorem State.setPending_active (i : Iface) (q : List (List Byte)) :
    (s.setPending i q).active = s.active := by cases i <;> rfl
@[simp] theorem State.setPending_answers (i : Iface) (q : List (List Byte)) :
    (s.setPending i q).answers = s.answers := by cases i <;> rfl
@[simp] theorem State.setPending_trace (i : Iface) (q : List (List Byte)) :
    (s.setPending i q).trace = s.trace := by cases i <;> rfl
@[simp] theorem State.pending_setPending_self (i : Iface) (q : List (List Byte)) :
    (s.setPending i q).pending i = q := by cases i <;> rfl
theorem State.pending_setPending_of_ne {i j : Iface} (h : j ≠ i) (q : List (List Byte)) :
    (s.setPending i q).pending j = s.pending j := by
  cases i <;> cases j <;> first | rfl | exact absurd rfl h
@[simp] theorem State.tookCommand_cfg (i : Iface) (q : List (List Byte)) :
    (s.tookCommand i q).cfg = s.cfg := by cases i <;> rfl
@[simp] theorem State.tookCommand_rbuf (i : Iface) (q : List (List Byte)) :
    (s.tookCommand i q).rbuf = s.rbuf := by cases i <;> rfl
@[simp] theorem State.tookCommand_params (i : Iface) (q : List (List Byte)) :
    (s.tookCommand i q).params = s.params := by cases i <;> rfl
@[simp] theorem State.tookCommand_schedule (i : Iface) (q : List (List Byte)) :
    (s.tookCommand i q).schedule = s.schedule := by cases i <;> rfl
@[simp] theorem State.tookCommand_active (i : Iface) (q : List (List Byte)) :
    (s.tookCommand i q).active = i := by cases i <;> rfl
@[simp] theorem State.tookCommand_answers (i : Iface) (q : List (List Byte)) :
    (s.tookCommand i q).answers = s.answers := by cases i <;> rfl
@[simp] theorem State.tookCommand_trace (i : Iface) (q : List (List Byte)) :
    (s.tookCommand i q).trace = s.trace := by cases i <;> rfl
@[simp] theorem State.presentNext_cfg (i : Iface) (d : List Byte) :
    (s.presentNext i d).cfg = s.cfg := by cases i <;> rfl
@[simp] theorem State.presentNext_rbuf (i : Iface) (d : List Byte) :
    (s.presentNext i d).rbuf = s.rbuf := by cases i <;> rfl
@[simp] theorem State.presentNext_params (i : Iface) (d : List Byte) :
    (s.presentNext i d).params = s.params := by cases i <;> rfl
@[simp] theorem State.presentNext_schedule (i : Iface) (d : List Byte) :
    (s.presentNext i d).schedule = .serve i :: s.schedule := by cases i <;> rfl
@[simp] theorem State.presentNext_active (i : Iface) (d : List Byte) :
    (s.presentNext i d).active = s.active := by cases i <;> rfl
@[simp] theorem State.presentNext_answers (i : Iface) (d : List Byte) :
    (s.presentNext i d).answers = s.answers := by cases i <;> rfl
@[simp] theorem State.presentNext_trace (i : Iface) (d : List Byte) :
    (s.presentNext i d).trace = s.trace := by cases i <;> rfl
@[simp] theorem State.pending_tookCommand_self (i : Iface) (q : List (List Byte)) :
    (s.tookCommand i q).pending i = q := by cases i <;> rfl
@[simp] theorem State.pending_presentNext_self (i : Iface) (d : List Byte) :
    (s.presentNext i d).pending i = d :: s.pending i := by cases i <;> rfl

end Sys2Proof.Machine
end

