-- ==== Sys2Proof/Laws/Observe.lean ====
section
/-! SUPPORT. What each kind of transaction adds to what a run shows (70_reset_and_hazards.md R261): the
packets, the writes and the responses, one lemma per projection and per operation that gives the host
something; and the packet of an accepted body. -/

namespace Sys2Proof.Machine

variable (s : State)

/-- The responses on an interface after one more response. -/
@[simp] theorem State.responses_respond (a : Iface) (bytes : List Byte) :
    (s.respond bytes).responses a =
      s.responses a ++ (if s.active = a then [bytes] else []) := by
  by_cases h : s.active = a <;> simp [State.responses, Event.responseOn?, h]
@[simp] theorem State.rxOut_respond (bytes : List Byte) : (s.respond bytes).rxOut = s.rxOut := by
  simp [State.rxOut, Event.packet?, List.filterMap_cons]
@[simp] theorem State.txBuffers_respond (bytes : List Byte) :
    (s.respond bytes).txBuffers = s.txBuffers := by
  simp [State.txBuffers, Event.buffer?, List.filterMap_cons]
@[simp] theorem State.txOut_respond (bytes : List Byte) : (s.respond bytes).txOut = s.txOut := by
  simp [State.txOut, Event.write?, List.filterMap_cons]
@[simp] theorem State.writesIssued_respond (bytes : List Byte) :
    (s.respond bytes).writesIssued = s.writesIssued := by
  simp [State.writesIssued, Event.isWrite]

/-- An error is a response. -/
theorem State.raise_eq_respond (e : CommandError) : s.raise e = s.respond e.response := rfl
/-- ILLEGAL_COMMAND for a command not served is a response. -/
theorem State.raiseNotServed_eq_respond (k : Opcode) :
    s.raiseNotServed k = s.respond [0x03, k.byte] := rfl
/-- ILLEGAL_COMMAND for a descriptor that spells no command is a response. -/
theorem State.raiseUndecodable_eq_respond (e : DecodeError) :
    s.raiseUndecodable e = s.respond (0x03 :: e.opcodeInfo.toList) := rfl

@[simp] theorem State.responses_write (a : Iface) (buffer : List Byte) :
    (s.write buffer).responses a = s.responses a := by
  simp [State.responses, Event.responseOn?, List.filterMap_cons]
@[simp] theorem State.rxOut_write (buffer : List Byte) : (s.write buffer).rxOut = s.rxOut := by
  simp [State.rxOut, Event.packet?, List.filterMap_cons]
@[simp] theorem State.txBuffers_write (buffer : List Byte) :
    (s.write buffer).txBuffers = s.txBuffers ++ [buffer] := by
  simp [State.txBuffers, Event.buffer?]
@[simp] theorem State.txOut_write (buffer : List Byte) :
    (s.write buffer).txOut = s.txOut ++ [(buffer, s.nextAnswer)] := by
  simp [State.txOut, Event.write?]
@[simp] theorem State.writesIssued_write (buffer : List Byte) :
    (s.write buffer).writesIssued = s.writesIssued + 1 := by
  simp [State.writesIssued, Event.isWrite]

@[simp] theorem State.responses_emitAll (a : Iface) (packets : List (List Byte × List Byte)) :
    (s.emitAll packets).responses a = s.responses a := by
  simp [State.responses, Event.responseOn?, List.filterMap_map, Function.comp_def]
@[simp] theorem State.rxOut_emitAll (packets : List (List Byte × List Byte)) :
    (s.emitAll packets).rxOut = s.rxOut ++ packets := by
  simp [State.rxOut, Event.packet?, List.filterMap_map, Function.comp_def]
@[simp] theorem State.txBuffers_emitAll (packets : List (List Byte × List Byte)) :
    (s.emitAll packets).txBuffers = s.txBuffers := by
  simp [State.txBuffers, Event.buffer?, List.filterMap_map, Function.comp_def]
@[simp] theorem State.txOut_emitAll (packets : List (List Byte × List Byte)) :
    (s.emitAll packets).txOut = s.txOut := by
  simp [State.txOut, Event.write?, List.filterMap_map, Function.comp_def]
@[simp] theorem State.writesIssued_emitAll (packets : List (List Byte × List Byte)) :
    (s.emitAll packets).writesIssued = s.writesIssued := by
  simp [State.writesIssued, Event.isWrite, List.countP_map, Function.comp_def]

/-- The packet of an accepted body is the split body. -/
@[simp] theorem packetsOf_emitBody (c : PacketFormat) (body : List Byte) (l : List RxAction) :
    packetsOf (emitBody c body :: l) = splitBody c body :: packetsOf l := rfl

/-- The answer to the next write, by number. -/
theorem State.nextAnswer_eq_answerAt : s.nextAnswer = s.answerAt 0 := by
  simp only [State.nextAnswer, State.answerAt]
  cases s.answers <;> simp
/-- After a write, the answers move up by one. -/
theorem State.answerAt_write (buffer : List Byte) (n : Nat) :
    (s.write buffer).answerAt n = s.answerAt (n + 1) := by
  simp [State.answerAt, Nat.add_comm 1 n, Nat.add_assoc]

end Sys2Proof.Machine
end

