-- ==== Sys2Proof/Laws/PerInstr.lean ====
section
/-! SUPPORT. Statements for all commands, one lemma for each constructor of `Instr`. -/

namespace Sys2Proof.Laws

/-- The descriptor of a well-formed command has the length that R97 tells from its first bytes. -/
def EncodedLength.Statement (i : Instr) : Prop :=
  i.wellFormed = true → descriptorLength (encode i) = some (encode i).length

theorem EncodedLength.cfgLoad (psz hsz dsz : Half) (sent idle : Byte) :
    EncodedLength.Statement (.cfgLoad psz hsz dsz sent idle) := by
  intro _
  simp [encode, descriptorLength, (ofByte?_eq_some_iff _ _).2 rfl]

theorem EncodedLength.rxIngest (chunk : List Byte) : EncodedLength.Statement (.rxIngest chunk) := by
  intro h
  simp only [Instr.wellFormed, fitsLengthField, decide_eq_true_eq] at h
  have hl := lengthFieldAt_counted [Opcode.rxIngest.byte] chunk [] h
  simp only [List.append_nil, List.singleton_append, List.length_singleton] at hl
  simp [encode, descriptorLength, (ofByte?_eq_some_iff _ _).2 rfl, hl]
  omega

theorem EncodedLength.rxReset : EncodedLength.Statement .rxReset := by
  intro _
  decide

/-- The two-sequence format, for either opcode. -/
theorem EncodedLength.twoSequences (opc : Byte) (hdr dat : List Byte) (hh : hdr.length < 65536)
    (hd : dat.length < 65536) :
    ((lengthFieldAt (opc :: (counted hdr ++ counted dat)) 1).bind fun hl =>
      (lengthFieldAt (opc :: (counted hdr ++ counted dat)) (3 + hl)).map (5 + hl + ·)) =
      some (opc :: (counted hdr ++ counted dat)).length := by
  have h1 := lengthFieldAt_counted [opc] hdr (counted dat) hh
  have h2 := lengthFieldAt_counted (opc :: counted hdr) dat [] hd
  have hlen : (opc :: counted hdr).length = 3 + hdr.length := by simp; omega
  simp only [List.singleton_append, List.length_singleton] at h1
  simp only [List.append_nil, List.cons_append, hlen] at h2
  simp [h1, h2]
  omega

theorem EncodedLength.txFrameSelf (hdr dat : List Byte) :
    EncodedLength.Statement (.txFrameSelf hdr dat) := by
  intro h
  simp only [Instr.wellFormed, fitsLengthField, Bool.and_eq_true, decide_eq_true_eq] at h
  have := EncodedLength.twoSequences Opcode.txFrameSelf.byte hdr dat h.1 h.2
  simp only [encode, descriptorLength, (ofByte?_eq_some_iff _ _).2 rfl]
  exact this

theorem EncodedLength.txFramePair (hdr dat : List Byte) :
    EncodedLength.Statement (.txFramePair hdr dat) := by
  intro h
  simp only [Instr.wellFormed, fitsLengthField, Bool.and_eq_true, decide_eq_true_eq] at h
  have := EncodedLength.twoSequences Opcode.txFramePair.byte hdr dat h.1 h.2
  simp only [encode, descriptorLength, (ofByte?_eq_some_iff _ _).2 rfl]
  exact this

theorem EncodedLength.pktSplit (body : List Byte) : EncodedLength.Statement (.pktSplit body) := by
  intro h
  simp only [Instr.wellFormed, fitsLengthField, decide_eq_true_eq] at h
  have hl := lengthFieldAt_counted [Opcode.pktSplit.byte] body [] h
  simp only [List.append_nil, List.singleton_append, List.length_singleton] at hl
  simp [encode, descriptorLength, (ofByte?_eq_some_iff _ _).2 rfl, hl]
  omega

end Sys2Proof.Laws
end

