-- ==== Sys2Proof/Laws/Step.lean ====
section
/-! SUPPORT. What a step and each meaning can do, said once: if it answers a next state, which case
holds and what that state is. Invariants are proved from these and do not unfold the step. -/

namespace Sys2Proof.Machine

/-- Everything a step can do. -/
theorem step_cases {s t : State} (h : step s = .next t) :
    (s.schedule = [] ∧ t = s) ∨
    (∃ turns, s.schedule = .hardwareReset :: turns ∧ t = s.tookTurn.hardwareReset) ∨
    (∃ a turns, s.schedule = .serve a :: turns ∧ s.pending a = [] ∧ t = s.tookTurn) ∨
    (∃ a turns d rest e, s.schedule = .serve a :: turns ∧ s.pending a = d :: rest ∧
      decode d = .error e ∧ t = (s.tookTurn.tookCommand a rest).raiseUndecodable e) ∨
    (∃ a turns d rest i, s.schedule = .serve a :: turns ∧ s.pending a = d :: rest ∧
      decode d = .ok i ∧ exec i (s.tookTurn.tookCommand a rest) = .next t) := by
  rcases hs : s.schedule with _ | ⟨_ | _, turns⟩
  · simp only [step, fetch, hs, Host.Outcome.next.injEq] at h
    exact .inl ⟨rfl, h.symm⟩
  · rename_i a
    rcases hp : s.pending a with _ | ⟨d, rest⟩
    · simp only [step, fetch, hs, hp, Host.Outcome.next.injEq] at h
      exact .inr (.inr (.inl ⟨a, turns, rfl, hp, h.symm⟩))
    · rcases hd : decode d with e | i
      · simp only [step, fetch, hs, hp, hd, Host.Outcome.next.injEq] at h
        exact .inr (.inr (.inr (.inl ⟨a, turns, d, rest, e, rfl, hp, hd, h.symm⟩)))
      · simp only [step, fetch, hs, hp, hd] at h
        exact .inr (.inr (.inr (.inr ⟨a, turns, d, rest, i, rfl, hp, hd, h⟩)))
  · simp only [step, fetch, hs, Host.Outcome.next.injEq] at h
    exact .inr (.inl ⟨turns, rfl, h.symm⟩)

/-- Everything CFG.LOAD can do (R112). -/
theorem execCfgLoad_cases {psz hsz dsz : Half} {sent idle : Byte} {s t : State}
    (h : execCfgLoad psz hsz dsz sent idle s = .next t) :
    (s.active = .ctrl ∧ formatAccepted s.params psz hsz dsz = true ∧
      t = ((s.setCfg { packetSize := psz, headerSize := hsz, dataSize := dsz, sentinelByte := sent,
                       idleByte := idle }).rbufClear).respond [statusOk]) ∨
    (s.active = .ctrl ∧ formatAccepted s.params psz hsz dsz = false ∧ t = s.raise .invalidConfig) ∨
    (s.active ≠ .ctrl ∧ t = s.raiseNotServed .cfgLoad) := by
  simp only [execCfgLoad, Opcode.servedOn, beq_iff_eq] at h
  split at h
  · split at h <;> cases h
    · exact .inl ⟨‹_›, ‹_›, rfl⟩
    · exact .inr (.inl ⟨‹_›, (Bool.not_eq_true _).mp ‹_›, rfl⟩)
  · cases h
    exact .inr (.inr ⟨‹_›, rfl⟩)

/-- Everything PKT.SPLIT can do (R113). -/
theorem execPktSplit_cases {body : List Byte} {s t : State} (h : execPktSplit body s = .next t) :
    (s.active ≠ .ctrl ∧ body.length = s.cfg.P ∧
      t = s.respond (statusOk :: (le16 s.cfg.headerSize ++ bodyHeader s.cfg body
        ++ le16 s.cfg.dataSize ++ bodyData s.cfg body))) ∨
    (s.active ≠ .ctrl ∧ body.length ≠ s.cfg.P ∧ t = s.raise (.invalidBodySize body.length)) ∨
    (s.active = .ctrl ∧ t = s.raiseNotServed .pktSplit) := by
  simp only [execPktSplit] at h
  split at h
  · have ha : s.active ≠ .ctrl := by
      rename_i hs
      intro hc
      simp [hc, Opcode.servedOn] at hs
    split at h <;> cases h
    · exact .inl ⟨ha, ‹_›, rfl⟩
    · exact .inr (.inl ⟨ha, ‹_›, rfl⟩)
  · cases h
    refine .inr (.inr ⟨?_, rfl⟩)
    rename_i hs
    revert hs
    cases s.active <;> simp [Opcode.servedOn]

/-- Everything TX.FRAME.SELF can do (R140). -/
theorem execTxFrameSelf_cases {hdr dat : List Byte} {s t : State}
    (h : execTxFrameSelf hdr dat s = .next t) :
    (s.active = .tx ∧ packetSizesMatch s.cfg hdr dat = true ∧
      t = (s.write (frame s.cfg hdr dat)).respond [statusOk, wokSelf s.nextAnswer]) ∨
    (s.active = .tx ∧ packetSizesMatch s.cfg hdr dat = false ∧
      t = s.raise (.invalidFrameSize hdr.length dat.length)) ∨
    (s.active ≠ .tx ∧ t = s.raiseNotServed .txFrameSelf) := by
  simp only [execTxFrameSelf, Opcode.servedOn, beq_iff_eq] at h
  split at h
  · split at h <;> cases h
    · exact .inl ⟨‹_›, ‹_›, rfl⟩
    · exact .inr (.inl ⟨‹_›, (Bool.not_eq_true _).mp ‹_›, rfl⟩)
  · cases h
    exact .inr (.inr ⟨‹_›, rfl⟩)

/-- Everything TX.FRAME.PAIR can do (R141). -/
theorem execTxFramePair_cases {hdr dat : List Byte} {s t : State}
    (h : execTxFramePair hdr dat s = .next t) :
    (s.active = .tx ∧ packetSizesMatch s.cfg hdr dat = true ∧
      t = (((s.write [s.cfg.S]).write (hdr ++ dat)).write [s.cfg.S]).respond
        [statusOk, wokPair s.nextAnswer (s.write [s.cfg.S]).nextAnswer
          ((s.write [s.cfg.S]).write (hdr ++ dat)).nextAnswer]) ∨
    (s.active = .tx ∧ packetSizesMatch s.cfg hdr dat = false ∧
      t = s.raise (.invalidFrameSize hdr.length dat.length)) ∨
    (s.active ≠ .tx ∧ t = s.raiseNotServed .txFramePair) := by
  simp only [execTxFramePair, Opcode.servedOn, beq_iff_eq] at h
  split at h
  · split at h <;> cases h
    · exact .inl ⟨‹_›, ‹_›, rfl⟩
    · exact .inr (.inl ⟨‹_›, (Bool.not_eq_true _).mp ‹_›, rfl⟩)
  · cases h
    exact .inr (.inr ⟨‹_›, rfl⟩)

/-- Everything RX.INGEST can do (R170, R171). -/
theorem execRxIngest_cases {chunk : List Byte} {s t : State} (h : execRxIngest chunk s = .next t) :
    (s.active = .rx ∧ s.params.chunkMax < chunk.length ∧
      t = s.raise (.chunkOverflow chunk.length)) ∨
    (s.active = .rx ∧ chunk = [] ∧ t = s.respond (statusOk :: le16OfNat 0)) ∨
    (s.active = .rx ∧ chunk ≠ [] ∧ chunk.length ≤ s.params.chunkMax ∧
      t = ((((s.rbufAppend chunk).setRbuf (rxRun Config.noSentPolicy s.cfg (s.rbuf ++ chunk)).2).emitAll
        (packetsOf (rxRun Config.noSentPolicy s.cfg (s.rbuf ++ chunk)).1)).respond (statusOk ::
          le16OfNat (packetsOf (rxRun Config.noSentPolicy s.cfg (s.rbuf ++ chunk)).1).length))) ∨
    (s.active ≠ .rx ∧ t = s.raiseNotServed .rxIngest) := by
  simp only [execRxIngest, Opcode.servedOn, beq_iff_eq] at h
  split at h
  · split at h
    · cases h
      exact .inl ⟨‹_›, ‹_›, rfl⟩
    · split at h <;> cases h
      · exact .inr (.inl ⟨‹_›, List.length_eq_zero_iff.1 ‹_›, rfl⟩)
      · exact .inr (.inr (.inl ⟨‹_›, fun hc => ‹¬ chunk.length = 0› (by simp [hc]), by omega, rfl⟩))
  · cases h
    exact .inr (.inr (.inr ⟨‹_›, rfl⟩))

/-- Everything RX.RESET can do (R183). -/
theorem execRxReset_cases {s t : State} (h : execRxReset s = .next t) :
    (s.active = .rx ∧ t = s.rbufClear.respond [statusOk]) ∨
    (s.active ≠ .rx ∧ t = s.raiseNotServed .rxReset) := by
  simp only [execRxReset, Opcode.servedOn, beq_iff_eq] at h
  split at h <;> cases h
  · exact .inl ⟨‹_›, rfl⟩
  · exact .inr ⟨‹_›, rfl⟩

end Sys2Proof.Machine
end

