-- ==== Sys2Proof/Tests/Slice0.lean ====
section
/-! SUPPORT. Tests. The expected results come from spec/95_test_vectors.md (the V- rows named in the
comments) and from hand calculation with the rules. The second part shows, for every statement with
hypotheses, a concrete state and operands that meet them all. -/

namespace Sys2Proof.Tests

open Sys2Proof.Machine

/-! ## Helpers -/

/-- `C4` of 95_test_vectors.md. -/
def c4 : PacketFormat := ⟨4, 1, 3, 0x00, 0xFF⟩

/-- A machine with the widest parameters, the given format and residual buffer, about to run a command
that came by interface `a`. -/
def at_ (c : PacketFormat) (buf : List Byte) (a : Iface) : State :=
  { State.resetWith ⟨65533, 65535⟩ with cfg := c, rbuf := buf, active := a }

/-- `at_`, with descriptors waiting on `CMD_RX` and turns to come. -/
def waiting (turns : List Turn) (ctrl rx : List (List Byte)) : State :=
  { at_ c4 [0x00, 0x11] .ctrl with schedule := turns, cmdCtrl := ctrl, cmdRx := rx }

/-- The state a run has come to, if it has not stopped. -/
def after : Host.Outcome State Fault Refusal → Option State
  | .next t => some t
  | _ => none

/-- The transactions of a run that has not stopped. -/
def events (o : Host.Outcome State Fault Refusal) : Option (List Event) := (after o).map State.trace

/-- The residual buffer of a run that has not stopped. -/
def rbufOf (o : Host.Outcome State Fault Refusal) : Option (List Byte) := (after o).map State.rbuf

/-! ## Well-formedness: each check refuses an ill-formed term (R84, R85) -/

/-- One byte more than a length field can say. -/
def tooLong : List Byte := List.replicate 65536 0

/-- As many bytes as a length field can say. -/
def longest : List Byte := List.replicate 65535 0

theorem test_tooLong_does_not_fit : fitsLengthField tooLong = false := by
  rw [fitsLengthField, tooLong, List.length_replicate]
  rfl
theorem test_longest_fits : fitsLengthField longest = true := by
  rw [fitsLengthField, longest, List.length_replicate]
  rfl
theorem test_wf_refuses_long_chunk : (Instr.rxIngest tooLong).wellFormed = false :=
  test_tooLong_does_not_fit
theorem test_wf_refuses_long_self_header : (Instr.txFrameSelf tooLong []).wellFormed = false := by
  rw [Instr.wellFormed, test_tooLong_does_not_fit, Bool.false_and]
theorem test_wf_refuses_long_self_data : (Instr.txFrameSelf [] tooLong).wellFormed = false := by
  rw [Instr.wellFormed, test_tooLong_does_not_fit, Bool.and_false]
theorem test_wf_refuses_long_pair_header : (Instr.txFramePair tooLong []).wellFormed = false := by
  rw [Instr.wellFormed, test_tooLong_does_not_fit, Bool.false_and]
theorem test_wf_refuses_long_pair_data : (Instr.txFramePair [] tooLong).wellFormed = false := by
  rw [Instr.wellFormed, test_tooLong_does_not_fit, Bool.and_false]
theorem test_wf_refuses_long_body : (Instr.pktSplit tooLong).wellFormed = false :=
  test_tooLong_does_not_fit
theorem test_wf_takes_longest_chunk : (Instr.rxIngest longest).wellFormed = true :=
  test_longest_fits

/-! ## Decoding: descriptors written out from the formats (R84) -/

/-- V-CFG-05: every field at a value that a swapped byte or field would change. -/
theorem test_decode_cfg_load :
    decode [0x01, 0x40, 0x00, 0xFF, 0xFE, 0x41, 0x02, 0x7E, 0xFD] =
      .ok (.cfgLoad 0x0040 0xFEFF 0x0241 0x7E 0xFD) := by rfl
/-- V-RX-05. -/
theorem test_decode_rx_ingest :
    decode [0x10, 0x07, 0x00, 0xFF, 0x00, 0x11, 0x22, 0x33, 0x44, 0x00] =
      .ok (.rxIngest [0xFF, 0x00, 0x11, 0x22, 0x33, 0x44, 0x00]) := by rfl
/-- V-RX-16. -/
theorem test_decode_rx_reset : decode [0x11] = .ok .rxReset := by rfl
/-- V-TX-01. -/
theorem test_decode_tx_frame_self :
    decode [0x20, 0x01, 0x00, 0xAA, 0x03, 0x00, 0x01, 0x02, 0x03] =
      .ok (.txFrameSelf [0xAA] [0x01, 0x02, 0x03]) := by rfl
/-- V-TX-09. -/
theorem test_decode_tx_frame_pair :
    decode [0x21, 0x01, 0x00, 0xAA, 0x02, 0x00, 0x01, 0x02] =
      .ok (.txFramePair [0xAA] [0x01, 0x02]) := by rfl
/-- V-SPL-01. -/
theorem test_decode_pkt_split :
    decode [0x30, 0x04, 0x00, 0x11, 0x22, 0x33, 0x44] =
      .ok (.pktSplit [0x11, 0x22, 0x33, 0x44]) := by rfl
/-- V-ENC-01, V-ENC-02, V-ENC-03: empty, 0x00, unassigned. -/
theorem test_decode_refuses_unassigned :
    decode [] = .error .empty ∧ decode [0x00] = .error (.unassigned 0x00) ∧
      decode [0x12] = .error (.unassigned 0x12) ∧ decode [0x40] = .error (.unassigned 0x40) := by
  refine ⟨?_, ?_, ?_, ?_⟩ <;> rfl
/-- V-ENC-04, V-ENC-05, V-ENC-06, V-TX-12, V-TX-13: wrong lengths and unreadable length fields. -/
theorem test_decode_refuses_malformed :
    decode [0x11, 0x00] = .error (.malformed 0x11) ∧ decode [0x10, 0x05] = .error (.malformed 0x10) ∧
      decode [0x10, 0x03, 0x00, 0xAA, 0xBB] = .error (.malformed 0x10) ∧
      decode [0x20, 0x01, 0x00, 0xAA, 0x03, 0x00, 0x01, 0x02, 0x03, 0xFF] = .error (.malformed 0x20) ∧
      decode [0x20, 0x01, 0x00, 0xAA, 0x03] = .error (.malformed 0x20) := by
  refine ⟨?_, ?_, ?_, ?_, ?_⟩ <;> rfl
/-- R95: the descriptor of `CFG.LOAD 4, 1, 3, 0x00, 0xFF` (V-CFG-01) and of V-TX-03. -/
theorem test_encode_writes_the_formats :
    encode (.cfgLoad 4 1 3 0x00 0xFF) = [0x01, 0x04, 0x00, 0x01, 0x00, 0x03, 0x00, 0x00, 0xFF] ∧
      encode (.txFrameSelf [0xAA, 0xBB] [0x01, 0x02]) =
        [0x20, 0x02, 0x00, 0xAA, 0xBB, 0x02, 0x00, 0x01, 0x02] := by
  constructor <;> rfl
/-- The table's rows, with operand bytes of zeros. -/
theorem test_table_words_decode :
    decodeTableWord 8 0x01 = some (.cfgLoad 0 0 0 0 0) ∧ decodeTableWord 8 0x10 = some (.rxIngest []) ∧
      decodeTableWord 8 0x11 = some .rxReset ∧ decodeTableWord 8 0x20 = some (.txFrameSelf [] []) ∧
      decodeTableWord 8 0x21 = some (.txFramePair [] []) ∧ decodeTableWord 8 0x30 = some (.pktSplit []) ∧
      decodeTableWord 8 0x00 = none := by
  refine ⟨?_, ?_, ?_, ?_, ?_, ?_, ?_⟩ <;> rfl
/-- Right after reset, whatever the parameters are, the next step runs the table word's command: a
CFG.LOAD of size 0 is refused, an empty chunk is a no-data round (R112, R171). -/
theorem test_table_words_run_at_reset :
    events (step (State.reset.withFetchWord 8 0x01)) = some [.response .ctrl [0x02]] ∧
      events (step (State.reset.withFetchWord 8 0x10)) = some [.response .rx [0x00, 0x00, 0x00]] ∧
      events (step (State.reset.withFetchWord 8 0x20)) =
        some [.response .tx [0x01, 0x00, 0x00, 0x00, 0x00]] := by
  refine ⟨?_, ?_, ?_⟩ <;> rfl

/-! ## Commands -/

/-- V-CFG-09: reloading the values in force still clears `rbuf`. -/
theorem test_cfg_load_clears :
    rbufOf (exec (.cfgLoad 4 1 3 0x00 0xFF) (at_ c4 [0x00, 0x11] .ctrl)) = some [] := by rfl
/-- V-CFG-05: the sum is exact; with a 16-bit wrap it would be 64. -/
theorem test_cfg_load_sum_is_exact :
    events (exec (.cfgLoad 64 65535 65 0x00 0xFF) (at_ c4 [] .ctrl)) =
      some [.response .ctrl [0x02]] := by rfl
/-- V-SPL-01. -/
theorem test_pkt_split :
    events (exec (.pktSplit [0x11, 0x22, 0x33, 0x44]) (at_ c4 [] .rx)) =
      some [.response .rx [0x00, 0x01, 0x00, 0x11, 0x03, 0x00, 0x22, 0x33, 0x44]] := by rfl
/-- V-SPL-02. -/
theorem test_pkt_split_wrong_length :
    events (exec (.pktSplit [0x11, 0x22, 0x33]) (at_ c4 [] .tx)) =
      some [.response .tx [0x01, 0x03, 0x00]] := by rfl
/-- V-TX-02: a write answered false leaves the status OK. -/
theorem test_tx_frame_self :
    events (exec (.txFrameSelf [0xAA] [0x01, 0x02, 0x03])
      { at_ c4 [] .tx with answers := [false] }) =
      some [.txOut [0x00, 0xAA, 0x01, 0x02, 0x03, 0x00] false, .response .tx [0x00, 0x00]] := by rfl
/-- V-TX-03: the lengths are checked separately. -/
theorem test_tx_frame_self_swapped_lengths :
    events (exec (.txFrameSelf [0xAA, 0xBB] [0x01, 0x02]) (at_ c4 [] .tx)) =
      some [.response .tx [0x01, 0x02, 0x00, 0x02, 0x00]] := by rfl
/-- V-TX-08b: a failed first write does not suppress the others. -/
theorem test_tx_frame_pair :
    events (exec (.txFramePair [0xAA] [0x01, 0x02, 0x03])
      { at_ c4 [] .tx with answers := [false, true, true] }) =
      some [.txOut [0x00] false, .txOut [0xAA, 0x01, 0x02, 0x03] true, .txOut [0x00] true,
        .response .tx [0x00, 0x06]] := by rfl
/-- V-RX-07: the actions for a damaged frame with an embedded sentinel, before a genuine one. -/
theorem test_rx_actions :
    rxRun Config.noSentPolicy c4
      [0x00, 0x11, 0x00, 0x33, 0x44, 0x55, 0x00, 0xAA, 0xBB, 0xCC, 0xDD, 0x00] =
      ([.skip1, .align 1, .skip1, .align 3, .emit [0xAA] [0xBB, 0xCC, 0xDD], .suspend], [0x00]) := by
  rfl
/-- V-RX-12: two frames that share a sentinel, in one chunk. -/
theorem test_rx_ingest :
    events (exec (.rxIngest [0x00, 0x11, 0x22, 0x33, 0x44, 0x00, 0x55, 0x66, 0x77, 0x88, 0x00])
      (at_ c4 [] .rx)) =
      some [.rxOut [0x11] [0x22, 0x33, 0x44], .rxOut [0x55] [0x66, 0x77, 0x88],
        .response .rx [0x00, 0x02, 0x00]] := by rfl
/-- V-RX-11a, V-RX-11b: two chunkings of one stream leave different residual buffers. -/
theorem test_rx_chunkings_leave_different_buffers :
    rbufOf (ingestAll [[0x00, 0x11, 0x22, 0x33, 0x44, 0x00, 0xFF, 0xFF, 0xFF, 0xFF, 0xFF, 0xFF, 0xFF, 0x00]]
      (at_ c4 [] .rx)) = some [0x00] ∧
    rbufOf (ingestAll [[0x00, 0x11, 0x22, 0x33, 0x44, 0x00, 0xFF, 0xFF, 0xFF, 0xFF, 0xFF, 0xFF],
      [0xFF, 0x00]] (at_ c4 [] .rx)) = some [0xFF, 0x00] := by
  constructor <;> rfl
/-- V-RX-16. -/
theorem test_rx_reset :
    rbufOf (exec .rxReset (at_ c4 [0x00, 0x11, 0x22] .rx)) = some [] := by rfl
/-- V-CFG-10: the wrong interface. -/
theorem test_wrong_interface :
    events (exec (.cfgLoad 4 1 3 0x00 0xFF) (at_ c4 [] .rx)) = some [.response .rx [0x03, 0x01]] := by
  rfl

/-! ## Witnesses: each statement's hypotheses can be met -/

/-- A turn with a command waiting: RX.RESET on `CMD_RX`. -/
def resetTurn : State := waiting [.serve .rx] [] [[0x11]]

/-- A turn with an accepted CFG.LOAD waiting on `CMD_CTRL`. -/
def loadTurn : State :=
  waiting [.serve .ctrl] [[0x01, 0x02, 0x00, 0x01, 0x00, 0x01, 0x00, 0x7E, 0xFF]] []

/-- A turn with an unassigned opcode waiting. -/
def illegalTurn : State := waiting [.serve .rx] [] [[0x12]]

/-- A turn with a chunk waiting that drops the buffer. -/
def ingestTurn : State := waiting [.serve .rx] [] [[0x10, 0x01, 0x00, 0x22]]

/-- The start of a session under `C4`. -/
abbrev session : State := at_ c4 [] .rx

theorem witness_DecodeOfEncodeIsTheCommand : (Instr.rxIngest [0x00]).wellFormed = true := by rfl
theorem witness_EncodeOfDecodeIsTheDescriptor : decode [0x11] = .ok .rxReset := by rfl
theorem witness_AssignedDescriptorDecodesIffLengthFits :
    Opcode.ofByte? 0x10 = some .rxIngest ∧
      descriptorLength [0x10, 0x00, 0x00] = some [0x10#8, 0x00#8, 0x00#8].length ∧
      descriptorLength [0x10, 0x01, 0x00] ≠ some [0x10#8, 0x01#8, 0x00#8].length := by decide
theorem witness_SixOpcodesAreAssigned :
    (0x02#8) ∉ [0x01#8, 0x10#8, 0x11#8, 0x20#8, 0x21#8, 0x30#8] ∧
      (0xFF#8) ∉ [0x01#8, 0x10#8, 0x11#8, 0x20#8, 0x21#8, 0x30#8] := by decide
theorem witness_StepRunsTheDecodedCommand :
    resetTurn.schedule = .serve .rx :: [] ∧ resetTurn.pending .rx = [0x11] :: [] ∧
      decode [0x11] = .ok .rxReset := ⟨rfl, rfl, rfl⟩
theorem witness_UndecodableDescriptorOnlyAnswersIllegalCommand :
    illegalTurn.schedule = .serve .rx :: [] ∧ illegalTurn.pending .rx = [0x12] :: [] ∧
      (∃ opc operands, [0x12#8] = opc :: operands ∧
        opc ∉ [0x01#8, 0x10#8, 0x11#8, 0x20#8, 0x21#8, 0x30#8]) ∧
      descriptorLength [] ≠ some ([] : List Byte).length ∧
      descriptorLength [0x10, 0x05] ≠ some [0x10#8, 0x05].length :=
  ⟨rfl, rfl, ⟨0x12, [], rfl, by decide⟩, by decide, by decide⟩
theorem witness_WrongInterfaceOnlyAnswersIllegalCommand :
    Instr.rxReset.opcode.servedOn (at_ c4 [] .tx).active = false ∧
      (Instr.pktSplit []).opcode.servedOn (at_ c4 [] .ctrl).active = false := by decide
theorem witness_IdleStepKeepsEverything :
    (at_ c4 [] .rx).schedule = [] ∧ (waiting [.serve .tx] [] []).schedule = .serve .tx :: [] ∧
      (waiting [.serve .tx] [] []).pending .tx = [] := by decide
theorem witness_EachCommandGivesOneResponseLast :
    resetTurn.schedule = .serve .rx :: [] ∧ resetTurn.pending .rx = [0x11] :: [] ∧
      ∃ t, step resetTurn = .next t := ⟨rfl, rfl, _, rfl⟩
theorem witness_FailedCommandChangesNothing :
    illegalTurn.schedule = .serve .rx :: [] ∧ illegalTurn.pending .rx = [0x12] :: [] ∧
      ∃ t, step illegalTurn = .next t ∧
        t.trace.getLast? = some (.response .rx (0x03 :: [0x12])) ∧ (0x03 : Byte) ≠ 0x00 :=
  ⟨rfl, rfl, _, rfl, rfl, by decide⟩
theorem witness_HardwareResetRestoresDefaults :
    (waiting [.hardwareReset] [] []).schedule = .hardwareReset :: [] := rfl
theorem witness_EveryStepKeepsTheInvariant :
    ingestTurn.Inv ∧ ∃ t, step ingestTurn = .next t := ⟨by decide, _, rfl⟩
theorem witness_NoStepChangesTheParameters : ∃ t, step ingestTurn = .next t := ⟨_, rfl⟩
theorem witness_ConfigurationChangesOnlyAtCfgLoadOrReset :
    (∃ t, step loadTurn = .next t ∧ t.cfg ≠ loadTurn.cfg) ∧
      ∃ t, step (waiting [.hardwareReset] [] []) = .next t ∧
        t.cfg ≠ (waiting [.hardwareReset] [] []).cfg :=
  ⟨⟨_, rfl, by decide⟩, _, rfl, by decide⟩
theorem witness_ResidualBufferBelongsToRx :
    (∃ t, step ingestTurn = .next t ∧ t.rbuf ≠ ingestTurn.rbuf) ∧
      (∃ t, step resetTurn = .next t ∧ t.rbuf ≠ resetTurn.rbuf) ∧
      (∃ t, step loadTurn = .next t ∧ t.rbuf ≠ loadTurn.rbuf) ∧
      ∃ t, step (waiting [.hardwareReset] [] []) = .next t ∧
        t.rbuf ≠ (waiting [.hardwareReset] [] []).rbuf :=
  ⟨⟨_, rfl, by decide⟩, ⟨_, rfl, by decide⟩, ⟨_, rfl, by decide⟩, _, rfl, by decide⟩
/-- At both ends of the range of `packet_size`, with PMAX = 65533. -/
theorem witness_CfgLoadInstallsAnAcceptedFormat :
    (at_ c4 [] .ctrl).active = .ctrl ∧
      (1 ≤ (1 : Half).toNat ∧ (1 : Half).toNat ≤ (at_ c4 [] .ctrl).params.pMax ∧
        (0 : Half).toNat + (1 : Half).toNat = (1 : Half).toNat) ∧
      (1 ≤ (65533 : Half).toNat ∧ (65533 : Half).toNat ≤ (at_ c4 [] .ctrl).params.pMax ∧
        (0 : Half).toNat + (65533 : Half).toNat = (65533 : Half).toNat) := by decide
theorem witness_CfgLoadRefusesABadFormat :
    (at_ c4 [] .ctrl).active = .ctrl ∧ (0 : Half).toNat < 1 ∧
      (at_ c4 [] .ctrl).params.pMax < (65534 : Half).toNat ∧
      (65535 : Half).toNat + (65 : Half).toNat ≠ (64 : Half).toNat := by decide
theorem witness_PktSplitAnswersHeaderAndData :
    (at_ c4 [] .rx).active ≠ .ctrl ∧ (at_ c4 [] .tx).active ≠ .ctrl ∧
      [0x11#8, 0x22, 0x33, 0x44].length = (at_ c4 [] .rx).cfg.P := by decide
theorem witness_PktSplitRefusesAnotherLength :
    (at_ c4 [] .rx).active ≠ .ctrl ∧ [0x11#8, 0x22, 0x33].length ≠ (at_ c4 [] .rx).cfg.P := by decide
theorem witness_TxFrameSelfWritesTheFrameOnce :
    (at_ c4 [] .tx).active = .tx ∧ [0xAA#8].length = (at_ c4 [] .tx).cfg.H ∧
      [0x01#8, 0x02, 0x03].length = (at_ c4 [] .tx).cfg.D := by decide
theorem witness_TxFramePairWritesThreeTimes :
    (at_ c4 [] .tx).active = .tx ∧ [0xAA#8].length = (at_ c4 [] .tx).cfg.H ∧
      [0x01#8, 0x02, 0x03].length = (at_ c4 [] .tx).cfg.D := by decide
theorem witness_FramingChecksSizesBeforeAnyWrite :
    (at_ c4 [] .tx).active = .tx ∧ [0xAA#8, 0xBB].length ≠ (at_ c4 [] .tx).cfg.H ∧
      [0x01#8, 0x02].length ≠ (at_ c4 [] .tx).cfg.D := by decide
theorem witness_BothVariantsCarryTheSameBytes :
    (at_ c4 [] .tx).active = .tx ∧ (at_ c4 [] .tx).cfg.Legal (at_ c4 [] .tx).params ∧
      [0xAA#8].length = (at_ c4 [] .tx).cfg.H ∧ [0x01#8, 0x02, 0x03].length = (at_ c4 [] .tx).cfg.D ∧
      (∃ t, exec (.txFrameSelf [0xAA] [0x01, 0x02, 0x03]) (at_ c4 [] .tx) = .next t) ∧
      ∃ u, exec (.txFramePair [0xAA] [0x01, 0x02, 0x03]) (at_ c4 [] .tx) = .next u :=
  ⟨rfl, by decide, rfl, rfl, ⟨_, rfl⟩, _, rfl⟩
theorem witness_WriteAnswersReachOnlyTheResponse :
    (∃ t, exec (.txFramePair [0xAA] [0x01, 0x02, 0x03]) (at_ c4 [] .tx) = .next t) ∧
      ∃ u, exec (.txFramePair [0xAA] [0x01, 0x02, 0x03])
        { at_ c4 [] .tx with answers := [false, true, true] } = .next u := ⟨⟨_, rfl⟩, _, rfl⟩
/-- The last clause: a command that is no framing command, and framing commands that came by another
interface or have a wrong length. -/
theorem witness_WriteAnswersReachOnlyTheResponse_other :
    (∃ t u, exec .rxReset (at_ c4 [] .tx) = .next t ∧
        exec .rxReset { at_ c4 [] .tx with answers := [true] } = .next u) ∧
      (¬ ∃ hdr dat, Instr.rxReset = .txFrameSelf hdr dat ∨ Instr.rxReset = .txFramePair hdr dat) ∧
      (∃ t u, exec (.txFrameSelf [0xAA] [0x01, 0x02, 0x03]) session = .next t ∧
        exec (.txFrameSelf [0xAA] [0x01, 0x02, 0x03]) { session with answers := [true] } = .next u) ∧
      session.active ≠ .tx ∧
      (∃ t u, exec (.txFramePair [0xAA, 0xBB] [0x01, 0x02]) (at_ c4 [] .tx) = .next t ∧
        exec (.txFramePair [0xAA, 0xBB] [0x01, 0x02]) { at_ c4 [] .tx with answers := [true] } =
          .next u) ∧
      [0xAA#8, 0xBB].length ≠ (at_ c4 [] .tx).cfg.H :=
  ⟨⟨_, _, rfl, rfl⟩, fun ⟨_, _, h⟩ => h.elim (fun h => nomatch h) (fun h => nomatch h),
    ⟨_, _, rfl, rfl⟩, by decide, ⟨_, _, rfl, rfl⟩, by decide⟩
theorem witness_FramerIsStateless :
    (∃ hdr dat, Instr.txFrameSelf [0xAA] [0x01, 0x02, 0x03] = .txFrameSelf hdr dat) ∧
      (at_ c4 [] .tx).active = (at_ c4 [0x00] .tx).active ∧
      (∃ t, exec (.txFrameSelf [0xAA] [0x01, 0x02, 0x03]) (at_ c4 [] .tx) = .next t) ∧
      ∃ u, exec (.txFrameSelf [0xAA] [0x01, 0x02, 0x03]) (at_ c4 [0x00] .tx) = .next u :=
  ⟨⟨_, _, rfl⟩, rfl, ⟨_, rfl⟩, _, rfl⟩
theorem witness_IdleByteIsReadByNoCommand :
    ∃ t, exec (.rxIngest [0x22]) session = .next t := ⟨_, rfl⟩
theorem witness_ShortBufferSuspends : [0x00#8, 0x11, 0x22, 0x33, 0x44].length < c4.P + 2 := by decide
theorem witness_NoSentinelDropsTheWholeBuffer :
    c4.P + 2 ≤ [0xFF#8, 0xFF, 0xFF, 0xFF, 0xFF, 0xFF].length ∧
      ∀ b ∈ [0xFF#8, 0xFF, 0xFF, 0xFF, 0xFF, 0xFF], b ≠ c4.S := by decide
theorem witness_GarbageBeforeTheSentinelIsDropped :
    [0xFF#8] ≠ [] ∧ (∀ b ∈ [0xFF#8], b ≠ c4.S) ∧
      c4.P + 2 ≤ ([0xFF#8] ++ c4.S :: [0x11, 0x22, 0x33, 0x44]).length := by decide
theorem witness_FramedWindowIsEmittedKeepingItsTrailer :
    [0xAA#8].length = c4.H ∧ [0x01#8, 0x02, 0x03].length = c4.D ∧ c4.H + c4.D = c4.P := by decide
theorem witness_FalseMatchDropsOneByte :
    c4.P + 2 ≤ (c4.S :: [0x11, 0x22, 0x33, 0x44, 0x55]).length ∧
      (c4.S :: [0x11, 0x22, 0x33, 0x44, 0x55])[c4.P + 1]? ≠ some c4.S := by decide
theorem witness_EveryMicroStepMakesProgress :
    (rxStep Config.noSentPolicy c4 [0x00, 0x11, 0x22, 0x33, 0x44, 0x55]).1 ≠ .suspend := by decide
theorem witness_RxIngestDeliversWhatTheLoopEmits :
    session.active = .rx ∧ [0x22#8] ≠ [] ∧ [0x22#8].length ≤ session.params.chunkMax := by decide
theorem witness_EmptyChunkIsANoDataRound : session.active = .rx := rfl
/-- V-RX-15: CHUNK_MAX = 16 and a chunk of 17 bytes. -/
theorem witness_OverlongChunkIsRefusedWhole :
    ({ session with params := ⟨64, 16⟩ } : State).active = .rx ∧
      ({ session with params := ⟨64, 16⟩ } : State).params.chunkMax <
        (List.replicate 17 (0xFF : Byte)).length := by decide
theorem witness_RxResetEmptiesTheResidualBuffer : session.active = .rx := rfl
theorem witness_IngestedPacketsHaveTheFormatsSizes :
    session.Inv ∧ session.active = .rx ∧ [0x22#8].length ≤ session.params.chunkMax := by decide
theorem witness_ResidualBufferNeverOverflows :
    (at_ c4 [0x00, 0x11, 0x22, 0x33, 0x44] .rx).Inv ∧
      [0x22#8].length ≤ (at_ c4 [0x00, 0x11, 0x22, 0x33, 0x44] .rx).params.chunkMax := by decide
/-- A change of bytes that is not the identity. -/
theorem witness_DeframerOnlyComparesWithTheSentinel :
    ∀ b : Byte, (if b = 0x00 then 0x00 else 0xAB : Byte) = c4.S ↔ b = c4.S := by
  intro b
  by_cases h : b = 0x00 <;> simp [h, c4]
theorem witness_PacketsAreTheCandidateChains :
    RxReady session [[0xFF, 0x00, 0x11], [0x22, 0x33, 0x44, 0x00]] := by decide
theorem witness_ChunkBoundariesDoNotChangePackets :
    RxReady session [[0x00, 0x11], [0x22]] ∧ RxReady session [[0x00], [0x11, 0x22]] ∧
      [[0x00#8, 0x11], [0x22]].flatten = [[0x00#8], [0x11, 0x22]].flatten ∧
      (∃ t, ingestAll [[0x00, 0x11], [0x22]] session = .next t) ∧
      ∃ t, ingestAll [[0x00], [0x11, 0x22]] session = .next t :=
  ⟨by decide, by decide, rfl, ⟨_, rfl⟩, _, rfl⟩
theorem witness_PacketsLeaveInStreamOrder :
    RxReady session [[0x00, 0x11, 0x22, 0x33, 0x44, 0x00]] := by decide
theorem witness_FrameIsEmittedWithItsTrailer :
    RxReady session ([[0x00, 0x11, 0x22, 0x33, 0x44]] ++ [[0x00]]) ∧
      ∃ t, ingestAll [[0x00, 0x11, 0x22, 0x33, 0x44]] session = .next t := ⟨by decide, _, rfl⟩
theorem witness_NoSentinelPolicyDoesNotChangePackets :
    (c4.H ≤ c4.P ∧ [[0xFF#8, 0xFF, 0xFF, 0xFF, 0xFF, 0xFF], [0x00]].flatten =
      [[0xFF#8, 0xFF, 0xFF], [0xFF, 0xFF, 0xFF, 0x00]].flatten) ∧
      (rxStep .retainTail c4 [0xFF, 0xFF, 0xFF, 0xFF, 0xFF, 0xFF]).1 = .dropAll := by decide
/-- V-RX-19b. -/
theorem witness_FrameWithIdlePaddingRoundTrips :
    RxReady session [[0xFF, 0xFF, 0xFF, 0x00, 0x11, 0x22, 0x33, 0x44, 0x00, 0xFF, 0xFF, 0xFF]] ∧
      session.cfg.I ≠ session.cfg.S ∧ [0x11#8].length = session.cfg.H ∧
      [0x22#8, 0x33, 0x44].length = session.cfg.D ∧
      [[0xFF#8, 0xFF, 0xFF, 0x00, 0x11, 0x22, 0x33, 0x44, 0x00, 0xFF, 0xFF, 0xFF]].flatten =
        List.replicate 3 session.cfg.I ++ frame session.cfg [0x11] [0x22, 0x33, 0x44] ++
          List.replicate 3 session.cfg.I := by decide
/-- Noise with a sentinel, followed by a frame. -/
theorem witness_FrameAfterNoiseIsFound :
    RxReady session [[0xFF, 0x00, 0x00, 0x11, 0x22, 0x33, 0x44, 0x00]] ∧
      [0x11#8].length = session.cfg.H ∧ [0x22#8, 0x33, 0x44].length = session.cfg.D ∧
      [[0xFF#8, 0x00, 0x00, 0x11, 0x22, 0x33, 0x44, 0x00]].flatten =
        [0xFF, 0x00] ++ frame session.cfg [0x11] [0x22, 0x33, 0x44] ∧
      ∀ p < [0xFF#8, 0x00].length,
        [[0xFF#8, 0x00, 0x00, 0x11, 0x22, 0x33, 0x44, 0x00]].flatten[p]? = some session.cfg.S →
        [[0xFF#8, 0x00, 0x00, 0x11, 0x22, 0x33, 0x44, 0x00]].flatten[p + session.cfg.P + 1]? ≠
          some session.cfg.S := by decide
/-- V-RX-07. -/
theorem witness_DamagedFrameDoesNotHideTheNext :
    RxReady session [[0x00, 0x11, 0x00, 0x33, 0x44, 0x55, 0x00, 0xAA, 0xBB, 0xCC, 0xDD, 0x00]] ∧
      [0xAA#8].length = session.cfg.H ∧ [0xBB#8, 0xCC, 0xDD].length = session.cfg.D ∧
      session.cfg.P + 2 ≤ (session.cfg.S :: [0x11, 0x00, 0x33, 0x44, 0x55]).length ∧
      [[0x00#8, 0x11, 0x00, 0x33, 0x44, 0x55, 0x00, 0xAA, 0xBB, 0xCC, 0xDD, 0x00]].flatten =
        (session.cfg.S :: [0x11, 0x00, 0x33, 0x44, 0x55]) ++
          frame session.cfg [0xAA] [0xBB, 0xCC, 0xDD] ∧
      ∀ p < (session.cfg.S :: [0x11, 0x00, 0x33, 0x44, 0x55]).length,
        [[0x00#8, 0x11, 0x00, 0x33, 0x44, 0x55, 0x00, 0xAA, 0xBB, 0xCC, 0xDD, 0x00]].flatten[p]? =
          some session.cfg.S →
        [[0x00#8, 0x11, 0x00, 0x33, 0x44, 0x55, 0x00, 0xAA, 0xBB, 0xCC, 0xDD,
          0x00]].flatten[p + session.cfg.P + 1]? ≠ some session.cfg.S := by decide
/-- V-RX-12. -/
theorem witness_SharedSentinelFramesAreAllEmitted :
    RxReady session [[0x00, 0x11, 0x22, 0x33, 0x44, 0x00, 0x55, 0x66, 0x77, 0x88, 0x00]] ∧
      (∀ body ∈ [[0x11#8, 0x22, 0x33, 0x44], [0x55, 0x66, 0x77, 0x88]], body.length = session.cfg.P) ∧
      [[0x00#8, 0x11, 0x22, 0x33, 0x44, 0x00, 0x55, 0x66, 0x77, 0x88, 0x00]].flatten =
        sharedStream session.cfg [[0x11, 0x22, 0x33, 0x44], [0x55, 0x66, 0x77, 0x88]] := by decide
/-- V-RX-09: the last body byte of the second frame is not the sentinel. -/
theorem witness_UnsharedFramesCostOneFalseMatch :
    RxReady session [[0x00, 0x11, 0x22, 0x33, 0x44, 0x00, 0x00, 0xAA, 0xBB, 0xCC, 0xDD, 0x00]] ∧
      [0x11#8, 0x22, 0x33, 0x44].length = session.cfg.P ∧
      [0xAA#8, 0xBB, 0xCC, 0xDD].length = session.cfg.P ∧
      [[0x00#8, 0x11, 0x22, 0x33, 0x44, 0x00, 0x00, 0xAA, 0xBB, 0xCC, 0xDD, 0x00]].flatten =
        ([session.cfg.S] ++ [0x11, 0x22, 0x33, 0x44] ++ [session.cfg.S]) ++
          ([session.cfg.S] ++ [0xAA, 0xBB, 0xCC, 0xDD] ++ [session.cfg.S]) ∧
      [0xAA#8, 0xBB, 0xCC, 0xDD].getLast? ≠ some session.cfg.S := by decide
/-- V-RX-10: the last body byte of the second frame is the sentinel. -/
theorem witness_UnsharedFramesCostOneFalseMatch_lost :
    RxReady session [[0x00, 0x11, 0x22, 0x33, 0x44, 0x00, 0x00, 0xAA, 0xBB, 0xCC, 0x00, 0x00]] ∧
      [0xAA#8, 0xBB, 0xCC, 0x00].length = session.cfg.P ∧
      [[0x00#8, 0x11, 0x22, 0x33, 0x44, 0x00, 0x00, 0xAA, 0xBB, 0xCC, 0x00, 0x00]].flatten =
        ([session.cfg.S] ++ [0x11, 0x22, 0x33, 0x44] ++ [session.cfg.S]) ++
          ([session.cfg.S] ++ [0xAA, 0xBB, 0xCC, 0x00] ++ [session.cfg.S]) ∧
      [0xAA#8, 0xBB, 0xCC, 0x00].getLast? = some session.cfg.S := by decide
theorem witness_IdleFillOfSentinelsFramesAPacket :
    RxReady (at_ ⟨4, 1, 3, 0x00, 0x00⟩ [] .rx) [[0x00, 0x00, 0x00], [0x00, 0x00, 0x00]] ∧
      (at_ ⟨4, 1, 3, 0x00, 0x00⟩ [] .rx).cfg.I = (at_ ⟨4, 1, 3, 0x00, 0x00⟩ [] .rx).cfg.S ∧
      [[0x00#8, 0x00, 0x00], [0x00, 0x00, 0x00]].flatten =
        List.replicate ((at_ ⟨4, 1, 3, 0x00, 0x00⟩ [] .rx).cfg.P + 2)
          (at_ ⟨4, 1, 3, 0x00, 0x00⟩ [] .rx).cfg.I := by decide
theorem witness_RxAndTxStepsCommute :
    List.Perm [Turn.serve .rx, .serve .tx] [.serve .tx, .serve .rx] ∧
      ∀ turn ∈ [Turn.serve .rx, .serve .tx], turn = .serve .rx ∨ turn = .serve .tx := by decide
theorem witness_PseudoInstructionsExpandAsStated :
    ((at_ c4 [] .ctrl).active = .ctrl ∧ (at_ c4 [] .ctrl).params.Legal) ∧
      ((at_ c4 [] .tx).active = .tx ∧ (at_ c4 [] .tx).cfg.Legal (at_ c4 [] .tx).params ∧
        [0xAA#8, 0x01, 0x02, 0x03].length = (at_ c4 [] .tx).cfg.P ∧
        [0xAA#8, 0x01, 0x02].length ≠ (at_ c4 [] .tx).cfg.P) ∧
      [0, 2, 3].Pairwise (· ≤ ·) ∧ ∀ k ∈ [0, 2, 3], k ≤ [0xAA#8, 0x01, 0x02].length := by decide

end Sys2Proof.Tests
end

section
/-! The residual buffer during RX.INGEST (10_state.md R26): a micro-step only drops bytes from the front,
so the loop never holds more than what RX.INGEST started it with. -/

namespace Sys2Proof.Machine

/-- What step 2.b keeps is the end of the buffer, under either policy (R174, R182). -/
theorem noSentRest_suffix (pol : NoSentPolicy) (c : PacketFormat) (buf : List Byte) :
    noSentRest pol c buf <:+ buf := by
  cases pol with
  | discardAll => exact List.nil_suffix
  | retainTail => exact List.drop_suffix _ _

/-- A micro-step takes bytes from the front of the buffer only (R191). -/
theorem rxStep_suffix (pol : NoSentPolicy) (c : PacketFormat) (buf : List Byte) :
    (rxStep pol c buf).2 <:+ buf := by
  obtain ⟨_, hsuspend⟩ | ⟨_, _, hdropAll⟩ | ⟨_, k, _, _, halign⟩ | ⟨_, _, _, hemit⟩ | ⟨_, _, _, hskip⟩ :=
    rxStep_cases pol c buf
  · rw [hsuspend]
  · rw [hdropAll]
    exact noSentRest_suffix pol c buf
  · rw [halign]
    exact List.drop_suffix _ _
  · rw [hemit]
    exact List.drop_suffix _ _
  · rw [hskip]
    exact List.drop_suffix _ _

/-- Any number of micro-steps takes bytes from the front of the buffer only (R170). -/
theorem rxLoop_suffix (pol : NoSentPolicy) (c : PacketFormat) (fuel : Nat) (buf : List Byte) :
    (rxLoop pol c fuel buf).2 <:+ buf := by
  induction fuel generalizing buf with
  | zero => exact List.suffix_rfl
  | succ fuel ih =>
    cases hexit : (rxStep pol c buf).1.exitsLoop with
    | true =>
      rw [rxLoop_succ_of_exits hexit]
      exact rxStep_suffix pol c buf
    | false =>
      rw [rxLoop_succ_of_goes_on hexit]
      exact (ih _).trans (rxStep_suffix pol c buf)

/-- Settles O46: the invariant bounds the buffer the loop starts with (R25), and every later buffer is a
suffix of that one. -/
theorem residualBufferNeverOverflows : Obligations.ResidualBufferNeverOverflows := by
  intro s chunk n ⟨_, ⟨_, hP, _⟩, hrbuf⟩ hchunk
  have hstart : (s.rbuf ++ chunk).length ≤ s.cfg.P + 1 + chunk.length := by
    rw [List.length_append]
    omega
  have hloop := (rxLoop_suffix Config.noSentPolicy s.cfg n (s.rbuf ++ chunk)).length_le
  have hcap : s.cfg.P + 1 + chunk.length ≤ s.params.rbufCap := by
    simp only [Params.rbufCap]
    omega
  exact ⟨hstart, hloop.trans hstart, hcap⟩

end Sys2Proof.Machine
end

section
/-! The 16-bit fields of 20_memory.md R52: the split of a half into its two bytes and its value read back. -/

namespace Sys2Proof

/-- R52: bits [7:0] and bits [15:8] make up the value. -/
theorem toNat_eq_lowByte_add_highByte (v : Half) :
    v.toNat = (v.extractLsb' 0 8).toNat + 256 * (v.extractLsb' 8 8).toNat := by
  have hv : v.toNat < 65536 := v.isLt
  simp only [BitVec.extractLsb'_toNat, Nat.shiftRight_eq_div_pow]
  omega

/-- R52: reading back the two bytes that `le16` writes gives the half. -/
@[simp] theorem readLe16_lowByte_highByte (v : Half) :
    readLe16 (v.extractLsb' 0 8) (v.extractLsb' 8 8) = v :=
  BitVec.eq_of_toNat_eq <|
    (readLe16_toNat _ _).trans (toNat_eq_lowByte_add_highByte v).symm

/-- Settles O5: the two bytes are bits [7:0] and bits [15:8] of the half. -/
theorem sixteenBitFieldsAreLittleEndian : Obligations.SixteenBitFieldsAreLittleEndian := by
  intro v
  exact ⟨v.extractLsb' 0 8, v.extractLsb' 8 8, rfl, toNat_eq_lowByte_add_highByte v,
    readLe16_lowByte_highByte v⟩

end Sys2Proof
end

section
/-! Commands that are refused before they run (30_encoding.md R94): a command's own meaning checks the
interface first, so on an interface that does not serve it nothing else of the meaning is reached. -/

namespace Sys2Proof.Machine

/-- R94: each meaning begins with the check of the interface. -/
theorem exec_of_not_servedOn {i : Instr} {s : State} (h : i.opcode.servedOn s.active = false) :
    exec i s = .next (s.raiseNotServed i.opcode) := by
  have hns : ¬ i.opcode.servedOn s.active = true := Bool.eq_false_iff.mp h
  cases i with
  | cfgLoad => exact if_neg hns
  | rxIngest => exact if_neg hns
  | rxReset => exact if_neg hns
  | txFrameSelf => exact if_neg hns
  | txFramePair => exact if_neg hns
  | pktSplit => exact if_neg hns

/-- Settles O9: the command is refused before its operands are looked at, and the refusal is one response. -/
theorem wrongInterfaceOnlyAnswersIllegalCommand :
    Obligations.WrongInterfaceOnlyAnswersIllegalCommand := by
  intro i s h
  rw [exec_of_not_servedOn h, State.raiseNotServed_eq_respond]
  rfl

end Sys2Proof.Machine
end

section
/-! The decoder read backwards (30_encoding.md R84, R93): whatever decodes is the descriptor that the
encoder writes, so its opcode byte is assigned and its length is the length rule's. -/

namespace Sys2Proof

/-- R52: writing the value of two bytes gives the two bytes back. -/
@[simp] theorem le16_readLe16 (lo hi : Byte) : le16 (readLe16 lo hi) = [lo, hi] := by
  have hlo : (readLe16 lo hi).extractLsb' 0 8 = lo := by
    apply BitVec.eq_of_toNat_eq
    rw [BitVec.extractLsb'_toNat, readLe16_toNat, Nat.shiftRight_zero]
    omega
  have hhi : (readLe16 lo hi).extractLsb' 8 8 = hi := by
    apply BitVec.eq_of_toNat_eq
    rw [BitVec.extractLsb'_toNat, readLe16_toNat, Nat.shiftRight_eq_div_pow]
    omega
  rw [le16, hlo, hhi]

/-- R84: what is read as a counted sequence is that sequence, counted. -/
theorem eq_counted_append_of_takeCounted {d s rest : List Byte} (h : takeCounted d = some (s, rest)) :
    fitsLengthField s = true ∧ d = counted s ++ rest := by
  obtain ⟨lo, hi, rfl, hlen⟩ := takeCounted_eq_some h
  have hfits : s.length < 65536 := hlen ▸ (readLe16 lo hi).isLt
  exact ⟨decide_eq_true hfits, by simp [counted, le16OfNat, hlen]⟩

/-- R84, formats F-CHUNK and F-BODY. -/
theorem eq_counted_of_decodeOneSequence {d s : List Byte} (h : decodeOneSequence d = some s) :
    fitsLengthField s = true ∧ d = counted s := by
  unfold decodeOneSequence at h
  split at h
  · next hs =>
    cases h
    simpa using eq_counted_append_of_takeCounted hs
  · cases h

/-- R84, format F-HD. -/
theorem eq_counted_append_counted_of_decodeTwoSequences {d hdr dat : List Byte}
    (h : decodeTwoSequences d = some (hdr, dat)) :
    (fitsLengthField hdr = true ∧ fitsLengthField dat = true) ∧ d = counted hdr ++ counted dat := by
  unfold decodeTwoSequences at h
  split at h
  · next hhdr =>
    obtain ⟨dat', hdat, heq⟩ := Option.map_eq_some_iff.mp h
    cases heq
    obtain ⟨hfits, rfl⟩ := eq_counted_append_of_takeCounted hhdr
    obtain ⟨hfits', rfl⟩ := eq_counted_of_decodeOneSequence hdat
    exact ⟨⟨hfits, hfits'⟩, rfl⟩
  · cases h

/-- R84, format F-CFG. -/
theorem encode_of_decodeFCfg {d : List Byte} {i : Instr} (h : decodeFCfg d = some i) :
    i.wellFormed = true ∧ encode i = Opcode.cfgLoad.byte :: d := by
  unfold decodeFCfg at h
  split at h
  · cases h
    exact ⟨rfl, by simp [encode]⟩
  · cases h

/-- R83, R84: operands that decode are those of the opcode's format, written out. -/
theorem encode_of_decodeOperands {k : Opcode} {d : List Byte} {i : Instr}
    (h : decodeOperands k d = some i) : i.wellFormed = true ∧ encode i = k.byte :: d := by
  cases k with
  | cfgLoad => exact encode_of_decodeFCfg h
  | rxIngest =>
    obtain ⟨chunk, hchunk, rfl⟩ := Option.map_eq_some_iff.mp h
    obtain ⟨hfits, rfl⟩ := eq_counted_of_decodeOneSequence hchunk
    exact ⟨hfits, rfl⟩
  | rxReset =>
    obtain ⟨rfl, heq⟩ := Option.ite_none_right_eq_some.mp h
    cases heq
    exact ⟨rfl, rfl⟩
  | txFrameSelf =>
    obtain ⟨⟨hdr, dat⟩, hseqs, rfl⟩ := Option.map_eq_some_iff.mp h
    obtain ⟨hfits, rfl⟩ := eq_counted_append_counted_of_decodeTwoSequences hseqs
    exact ⟨Bool.and_eq_true_iff.mpr hfits, rfl⟩
  | txFramePair =>
    obtain ⟨⟨hdr, dat⟩, hseqs, rfl⟩ := Option.map_eq_some_iff.mp h
    obtain ⟨hfits, rfl⟩ := eq_counted_append_counted_of_decodeTwoSequences hseqs
    exact ⟨Bool.and_eq_true_iff.mpr hfits, rfl⟩
  | pktSplit =>
    obtain ⟨body, hbody, rfl⟩ := Option.map_eq_some_iff.mp h
    obtain ⟨hfits, rfl⟩ := eq_counted_of_decodeOneSequence hbody
    exact ⟨hfits, rfl⟩

/-- R84, R93: a descriptor that decodes is the encoding of the well-formed command it decodes to. -/
theorem encode_of_decode {d : List Byte} {i : Instr} (h : decode d = .ok i) :
    i.wellFormed = true ∧ encode i = d := by
  cases d with
  | nil => cases h
  | cons opc rest =>
    simp only [decode] at h
    split at h
    · cases h
    · next k hk =>
      split at h
      · cases h
      · next hops =>
        cases h
        rw [(ofByte?_eq_some_iff opc k).mp hk]
        exact encode_of_decodeOperands hops

/-- R95: every descriptor the encoder writes begins with its command's opcode byte. -/
theorem encode_head? (i : Instr) : (encode i).head? = some i.opcode.byte := by
  cases i <;> rfl

/-- R83: the assigned opcode bytes, listed. -/
theorem Opcode.byte_mem_assigned (k : Opcode) :
    k.byte ∈ [0x01#8, 0x10#8, 0x11#8, 0x20#8, 0x21#8, 0x30#8] := by
  cases k <;> decide

/-- R97: the length rule tells the length of every well-formed command's descriptor. -/
theorem descriptorLength_encode {i : Instr} (hwf : i.wellFormed = true) :
    descriptorLength (encode i) = some (encode i).length := by
  cases i with
  | cfgLoad psz hsz dsz sent idle => exact Laws.EncodedLength.cfgLoad psz hsz dsz sent idle hwf
  | rxIngest chunk => exact Laws.EncodedLength.rxIngest chunk hwf
  | rxReset => exact Laws.EncodedLength.rxReset hwf
  | txFrameSelf hdr dat => exact Laws.EncodedLength.txFrameSelf hdr dat hwf
  | txFramePair hdr dat => exact Laws.EncodedLength.txFramePair hdr dat hwf
  | pktSplit body => exact Laws.EncodedLength.pktSplit body hwf

/-- R97: a descriptor that decodes has the length that the length rule gives it. -/
theorem descriptorLength_of_decode {d : List Byte} {i : Instr} (h : decode d = .ok i) :
    descriptorLength d = some d.length := by
  obtain ⟨hwf, rfl⟩ := encode_of_decode h
  exact descriptorLength_encode hwf

/-- R83, R92: a descriptor that decodes begins with an assigned opcode byte. -/
theorem opcode_mem_assigned_of_decode {opc : Byte} {operands : List Byte} {i : Instr}
    (h : decode (opc :: operands) = .ok i) :
    opc ∈ [0x01#8, 0x10#8, 0x11#8, 0x20#8, 0x21#8, 0x30#8] := by
  have hhead := encode_head? i
  rw [(encode_of_decode h).2, List.head?_cons, Option.some.injEq] at hhead
  exact hhead ▸ i.opcode.byte_mem_assigned

/-- R92, R93: a refused descriptor is reported with its first byte, if it has one. -/
theorem opcodeInfo_of_decode_error {d : List Byte} {e : DecodeError} (h : decode d = .error e) :
    e.opcodeInfo.toList = d.take 1 := by
  cases d with
  | nil =>
    cases h
    rfl
  | cons opc rest =>
    simp only [decode] at h
    split at h
    · cases h
      rfl
    · split at h
      · cases h
        rfl
      · cases h

namespace Machine

/-- R53, R81: the state in which a waiting descriptor is run, field by field. -/
theorem tookTurn_tookCommand_eq {s : State} {a : Iface} {turns : List Turn}
    (hturn : s.schedule = .serve a :: turns) (rest : List (List Byte)) :
    s.tookTurn.tookCommand a rest =
      { s.setPending a rest with schedule := turns, active := a } := by
  cases a <;> simp [State.tookTurn, State.tookCommand, State.setPending, hturn]

/-- R92, R93: the step that takes a descriptor the decoder refuses. -/
theorem step_of_decode_error {s : State} {a : Iface} {turns : List Turn} {d : List Byte}
    {rest : List (List Byte)} {e : DecodeError} (hturn : s.schedule = .serve a :: turns)
    (hwaiting : s.pending a = d :: rest) (herror : decode d = .error e) :
    step s = .next ((s.tookTurn.tookCommand a rest).raiseUndecodable e) := by
  simp only [step, fetch, hturn, hwaiting, herror]

/-- Settles O8: such a descriptor cannot decode, since one that decodes is what the encoder writes; and the
step that takes a refused descriptor only responds. -/
theorem undecodableDescriptorOnlyAnswersIllegalCommand :
    Obligations.UndecodableDescriptorOnlyAnswersIllegalCommand := by
  intro s a turns d rest hturn hwaiting hbad
  cases hdecode : decode d with
  | error e =>
    rw [step_of_decode_error hturn hwaiting hdecode, State.raiseUndecodable_eq_respond,
      opcodeInfo_of_decode_error hdecode, tookTurn_tookCommand_eq hturn]
    simp only [State.respond, State.deliver, State.setPending_trace]
  | ok i =>
    obtain ⟨opc, operands, rfl, hunassigned⟩ | hlength := hbad
    · exact absurd (opcode_mem_assigned_of_decode hdecode) hunassigned
    · exact absurd (descriptorLength_of_decode hdecode) hlength

end Machine

end Sys2Proof
end

section
/-! The two framing variants side by side (30_encoding.md R89, R90): the write buffers each adds, and the
frame they both spell. -/

namespace Sys2Proof.Machine

/-- The size check passes exactly when both lengths are the configuration's (R142). -/
theorem packetSizesMatch_iff (c : PacketFormat) (hdr dat : List Byte) :
    packetSizesMatch c hdr dat = true ↔ hdr.length = c.H ∧ dat.length = c.D := by
  simp [packetSizesMatch]

/-- R140: TX.FRAME.SELF adds the frame as one write buffer. -/
theorem txBuffers_of_execTxFrameSelf {hdr dat : List Byte} {s t : State} (htx : s.active = .tx)
    (hsizes : packetSizesMatch s.cfg hdr dat = true) (h : execTxFrameSelf hdr dat s = .next t) :
    t.txBuffers = s.txBuffers ++ [frame s.cfg hdr dat] := by
  obtain ⟨_, _, rfl⟩ | ⟨_, hbad, _⟩ | ⟨hother, _⟩ := execTxFrameSelf_cases h
  · simp
  · simp [hsizes] at hbad
  · exact absurd htx hother

/-- R141: TX.FRAME.PAIR adds the sentinel, the body and the sentinel as three write buffers. -/
theorem txBuffers_of_execTxFramePair {hdr dat : List Byte} {s t : State} (htx : s.active = .tx)
    (hsizes : packetSizesMatch s.cfg hdr dat = true) (h : execTxFramePair hdr dat s = .next t) :
    t.txBuffers = s.txBuffers ++ [[s.cfg.S], hdr ++ dat, [s.cfg.S]] := by
  obtain ⟨_, _, rfl⟩ | ⟨_, hbad, _⟩ | ⟨hother, _⟩ := execTxFramePair_cases h
  · simp
  · simp [hsizes] at hbad
  · exact absurd htx hother

/-- R90: the three buffers, taken in order, concatenate to the frame. -/
theorem flatten_three_writes (c : PacketFormat) (hdr dat : List Byte) :
    [[c.S], hdr ++ dat, [c.S]].flatten = frame c hdr dat := by
  simp [frame]

/-- R89: a frame is the sentinel, then the body, then the sentinel again. -/
theorem frame_eq_cons (c : PacketFormat) (hdr dat : List Byte) :
    frame c hdr dat = c.S :: ((hdr ++ dat) ++ [c.S]) := rfl

/-- R89: the two sentinels make a frame two bytes longer than its packet. -/
theorem frame_length (c : PacketFormat) (hdr dat : List Byte) :
    (frame c hdr dat).length = hdr.length + dat.length + 2 := by
  simp [frame_eq_cons, Nat.add_assoc]

/-- R89: a frame begins with the sentinel. -/
theorem frame_head? (c : PacketFormat) (hdr dat : List Byte) :
    (frame c hdr dat).head? = some c.S := rfl

/-- R89: a frame ends with the sentinel. -/
theorem frame_getLast? (c : PacketFormat) (hdr dat : List Byte) :
    (frame c hdr dat).getLast? = some c.S :=
  List.getLast?_concat

/-- R89: between its sentinels a frame holds the header and the data. -/
theorem slice_frame (c : PacketFormat) (hdr dat : List Byte) :
    slice (frame c hdr dat) 1 (hdr.length + dat.length + 1) = hdr ++ dat := by
  rw [frame_eq_cons, slice, List.drop_succ_cons, List.drop_zero, Nat.add_sub_cancel,
    ← List.length_append]
  exact List.take_left

/-- Settles O29: both variants carry the frame, TX.FRAME.SELF whole and TX.FRAME.PAIR in three pieces. -/
theorem bothVariantsCarryTheSameBytes : Obligations.BothVariantsCarryTheSameBytes := by
  intro hdr dat s t u htx ⟨_, _, hsum⟩ hhdr hdat hself hpair
  have hsizes := (packetSizesMatch_iff s.cfg hdr dat).mpr ⟨hhdr, hdat⟩
  have hbody : hdr.length + dat.length = s.cfg.P := by rw [hhdr, hdat, hsum]
  have hone : [frame s.cfg hdr dat].flatten = frame s.cfg hdr dat := List.flatten_singleton
  refine ⟨[frame s.cfg hdr dat], [[s.cfg.S], hdr ++ dat, [s.cfg.S]],
    txBuffers_of_execTxFrameSelf htx hsizes hself, txBuffers_of_execTxFramePair htx hsizes hpair,
    rfl, ?_, ?_, ?_, ?_, ?_, ?_⟩
  · simp [hbody]
  · rw [hone, flatten_three_writes]
  · rw [hone, frame_length, hbody]
  · rw [hone, frame_head?]
  · rw [hone, frame_getLast?]
  · rw [hone, ← hbody, slice_frame]

end Sys2Proof.Machine
end

section
/-! The size check of the framing commands (41_framer.md R142): either length wrong, and the command ends in
the INVALID_PACKET_SIZE response before its first write. -/

namespace Sys2Proof.Machine

/-- The size check fails exactly when one of the two lengths is wrong (R142). -/
theorem packetSizesMatch_eq_false_iff (c : PacketFormat) (hdr dat : List Byte) :
    packetSizesMatch c hdr dat = false ↔ hdr.length ≠ c.H ∨ dat.length ≠ c.D := by
  rw [← Bool.not_eq_true, packetSizesMatch_iff, not_and_or]

/-- R142: TX.FRAME.SELF with a wrong length only raises INVALID_PACKET_SIZE. -/
theorem execTxFrameSelf_of_wrong_sizes {hdr dat : List Byte} {s : State} (htx : s.active = .tx)
    (hsizes : packetSizesMatch s.cfg hdr dat = false) :
    execTxFrameSelf hdr dat s = .next (s.raise (.invalidFrameSize hdr.length dat.length)) := by
  have hserved : Opcode.txFrameSelf.servedOn s.active = true := by rw [htx]; rfl
  rw [execTxFrameSelf, if_pos hserved, if_neg (Bool.eq_false_iff.mp hsizes)]

/-- R142: TX.FRAME.PAIR with a wrong length only raises INVALID_PACKET_SIZE. -/
theorem execTxFramePair_of_wrong_sizes {hdr dat : List Byte} {s : State} (htx : s.active = .tx)
    (hsizes : packetSizesMatch s.cfg hdr dat = false) :
    execTxFramePair hdr dat s = .next (s.raise (.invalidFrameSize hdr.length dat.length)) := by
  have hserved : Opcode.txFramePair.servedOn s.active = true := by rw [htx]; rfl
  rw [execTxFramePair, if_pos hserved, if_neg (Bool.eq_false_iff.mp hsizes)]

/-- R88, R223: INVALID_PACKET_SIZE of a framing command is one response on `CMD_TX` with both lengths. -/
theorem State.raise_invalidFrameSize_eq {s : State} (htx : s.active = .tx) (hl dl : Nat) :
    s.raise (.invalidFrameSize hl dl) = { s with
      trace := s.trace ++ [.response .tx (0x01 :: (le16OfNat hl ++ le16OfNat dl))] } := by
  rw [← htx]
  rfl

/-- Settles O28: both variants end at the size check, and what they raise there is one response. -/
theorem framingChecksSizesBeforeAnyWrite : Obligations.FramingChecksSizesBeforeAnyWrite := by
  intro hdr dat s htx hwrong
  have hsizes := (packetSizesMatch_eq_false_iff s.cfg hdr dat).mpr hwrong
  rw [← State.raise_invalidFrameSize_eq htx]
  exact ⟨execTxFrameSelf_of_wrong_sizes htx hsizes, execTxFramePair_of_wrong_sizes htx hsizes⟩

end Sys2Proof.Machine
end

section
/-! The Framer holds no state (41_framer.md R144): the write buffers of a framing command as a function of
the interface, the configuration and the command, and what such a command leaves as it was. -/

namespace Sys2Proof.Machine

/-- The write buffers that a framing command issues under format `c` when it came by interface `a` (R140,
R141); none when it is refused (R94, R142), and none for the other commands. -/
def framingBuffers (a : Iface) (c : PacketFormat) : Instr → List (List Byte)
  | .txFrameSelf hdr dat =>
    if a = .tx ∧ packetSizesMatch c hdr dat = true then [frame c hdr dat] else []
  | .txFramePair hdr dat =>
    if a = .tx ∧ packetSizesMatch c hdr dat = true then [[c.S], hdr ++ dat, [c.S]] else []
  | _ => []

/-- R144: of the configuration, the buffers depend on the two lengths and the sentinel alone. -/
theorem framingBuffers_congr (a : Iface) {c1 c2 : PacketFormat} (hH : c1.H = c2.H) (hD : c1.D = c2.D)
    (hS : c1.S = c2.S) (i : Instr) : framingBuffers a c1 i = framingBuffers a c2 i := by
  have hsizes (hdr dat : List Byte) : packetSizesMatch c1 hdr dat = packetSizesMatch c2 hdr dat := by
    rw [packetSizesMatch, packetSizesMatch, hH, hD]
  have hframe (hdr dat : List Byte) : frame c1 hdr dat = frame c2 hdr dat := by
    rw [frame, frame, hS]
  cases i with
  | txFrameSelf hdr dat => rw [framingBuffers, framingBuffers, hsizes, hframe]
  | txFramePair hdr dat => rw [framingBuffers, framingBuffers, hsizes, hS]
  | _ => rfl

/-- What a framing command does to `s`, but for the answers and the response: it adds its write buffers,
and keeps the registers, the residual buffer and the packets. -/
structure FramingEffect (i : Instr) (s t : State) : Prop where
  txBuffers : t.txBuffers = s.txBuffers ++ framingBuffers s.active s.cfg i
  cfg : t.cfg = s.cfg
  rbuf : t.rbuf = s.rbuf
  rxOut : t.rxOut = s.rxOut

/-- A framing command that is refused, and so has no buffers, has only responded (R94, R142). -/
theorem FramingEffect.of_respond {i : Instr} {s : State} (hnone : framingBuffers s.active s.cfg i = [])
    (bytes : List Byte) : FramingEffect i s (s.respond bytes) where
  txBuffers := by rw [hnone, List.append_nil, State.txBuffers_respond]
  cfg := rfl
  rbuf := rfl
  rxOut := s.rxOut_respond bytes

/-- R140, R142: TX.FRAME.SELF writes the frame or is refused. -/
theorem framingEffect_of_execTxFrameSelf {hdr dat : List Byte} {s t : State}
    (h : execTxFrameSelf hdr dat s = .next t) : FramingEffect (.txFrameSelf hdr dat) s t := by
  obtain ⟨htx, hsizes, rfl⟩ | ⟨_, hsizes, rfl⟩ | ⟨hother, rfl⟩ := execTxFrameSelf_cases h
  · exact ⟨by simp [framingBuffers, htx, hsizes], by simp, by simp, by simp⟩
  · rw [State.raise_eq_respond]
    exact .of_respond (by simp [framingBuffers, hsizes]) _
  · rw [State.raiseNotServed_eq_respond]
    exact .of_respond (by simp [framingBuffers, hother]) _

/-- R141, R142: TX.FRAME.PAIR issues its three writes or is refused. -/
theorem framingEffect_of_execTxFramePair {hdr dat : List Byte} {s t : State}
    (h : execTxFramePair hdr dat s = .next t) : FramingEffect (.txFramePair hdr dat) s t := by
  obtain ⟨htx, hsizes, rfl⟩ | ⟨_, hsizes, rfl⟩ | ⟨hother, rfl⟩ := execTxFramePair_cases h
  · exact ⟨by simp [framingBuffers, htx, hsizes], by simp, by simp, by simp⟩
  · rw [State.raise_eq_respond]
    exact .of_respond (by simp [framingBuffers, hsizes]) _
  · rw [State.raiseNotServed_eq_respond]
    exact .of_respond (by simp [framingBuffers, hother]) _

/-- R144: what a framing command of either variant does. -/
theorem framingEffect_of_exec {i : Instr} {s t : State}
    (hframing : (∃ hdr dat, i = .txFrameSelf hdr dat) ∨ ∃ hdr dat, i = .txFramePair hdr dat)
    (h : exec i s = .next t) : FramingEffect i s t := by
  obtain ⟨hdr, dat, rfl⟩ | ⟨hdr, dat, rfl⟩ := hframing
  · exact framingEffect_of_execTxFrameSelf h
  · exact framingEffect_of_execTxFramePair h

/-- Settles O31: both runs add the same buffers, since these depend on nothing in which the two states may
differ. -/
theorem framerIsStateless : Obligations.FramerIsStateless := by
  intro i s1 s2 t1 t2 hframing hactive _ hH hD hS h1 h2
  have effect1 := framingEffect_of_exec hframing h1
  have effect2 := framingEffect_of_exec hframing h2
  have hsame : framingBuffers s2.active s2.cfg i = framingBuffers s1.active s1.cfg i := by
    rw [hactive, framingBuffers_congr _ hH hD hS]
  exact ⟨⟨framingBuffers s1.active s1.cfg i, effect1.txBuffers, hsame ▸ effect2.txBuffers⟩,
    effect1.cfg, effect1.rbuf, effect1.rxOut⟩

end Sys2Proof.Machine
end

section
/-! The sliding-window sentinel detector (42_deframer.md R173): the search for the first sentinel, said through
the bytes of the buffer, and the two comparisons at the ends of the window. -/

namespace Sys2Proof.Machine

/-- R11: the search answers NONE exactly when the byte does not occur. -/
theorem firstIndex_eq_none_iff (buf : List Byte) (v : Byte) : firstIndex buf v = none ↔ v ∉ buf := by
  rw [firstIndex, List.findIdx?_eq_none_iff]
  constructor
  · intro h hmem
    simpa using h v hmem
  · intro h b hb
    exact beq_eq_false_iff_ne.mpr fun hbv => h (hbv ▸ hb)

/-- R11: the search answers the smallest index that holds the byte. -/
theorem firstIndex_eq_some_iff (buf : List Byte) (v : Byte) (k : Nat) :
    firstIndex buf v = some k ↔ buf[k]? = some v ∧ ∀ j < k, buf[j]? ≠ some v := by
  rw [firstIndex, List.findIdx?_eq_some_iff_getElem]
  constructor
  · rintro ⟨hk, hbyte, hbefore⟩
    refine ⟨by simpa [hk] using hbyte, fun j hj hv => hbefore j hj ?_⟩
    obtain ⟨_, hv⟩ := List.getElem?_eq_some_iff.mp hv
    exact beq_iff_eq.mpr hv
  · rintro ⟨hbyte, hbefore⟩
    obtain ⟨hk, hbyte⟩ := List.getElem?_eq_some_iff.mp hbyte
    refine ⟨hk, beq_iff_eq.mpr hbyte, fun j hj hv => hbefore j hj ?_⟩
    exact List.getElem?_eq_some_iff.mpr ⟨hj.trans hk, beq_iff_eq.mp hv⟩

/-- R173: LEAD compares byte 0 with the sentinel. -/
theorem detectLead_eq_true_iff (c : PacketFormat) (buf : List Byte) :
    detectLead c buf = true ↔ buf[0]? = some c.S := by
  rw [detectLead, beq_iff_eq, List.head?_eq_getElem?]

/-- R173: TRAIL compares byte `P + 1` with the sentinel. -/
theorem detectTrail_eq_true_iff (c : PacketFormat) (buf : List Byte) :
    detectTrail c buf = true ↔ buf[c.P + 1]? = some c.S := beq_iff_eq

/-- R173: FIRST is 0 exactly when byte 0 is the sentinel. -/
theorem detectFirst_eq_zero_iff (c : PacketFormat) (buf : List Byte) :
    detectFirst c buf = some 0 ↔ buf[0]? = some c.S := by
  simp [detectFirst, firstIndex_eq_some_iff]

/-- Settles O33: FIRST by the two equations of the search, LEAD and TRAIL by the byte each compares. -/
theorem detectorOutputsAreExact : Obligations.DetectorOutputsAreExact := by
  intro c buf
  exact ⟨firstIndex_eq_none_iff buf c.S, firstIndex_eq_some_iff buf c.S, detectLead_eq_true_iff c buf,
    (detectLead_eq_true_iff c buf).trans (detectFirst_eq_zero_iff c buf).symm,
    detectTrail_eq_true_iff c buf⟩

end Sys2Proof.Machine
end

section
/-! The micro-step on a buffer that is given byte by byte (42_deframer.md R174 to R177): one equation for each
case of `rxStep`, and how the accepted body is split. -/

namespace Sys2Proof.Machine

/-- R174: the micro-step on a full buffer without a sentinel. -/
theorem rxStep_of_first_none (pol : NoSentPolicy) {c : PacketFormat} {buf : List Byte}
    (hlen : c.P + 2 ≤ buf.length) (hfirst : detectFirst c buf = none) :
    rxStep pol c buf = (.dropAll, noSentRest pol c buf) := by
  simp [rxStep, windowLength, Nat.not_lt.mpr hlen, hfirst]

/-- R175: the micro-step on a full buffer whose first sentinel is further on. -/
theorem rxStep_of_first_pos (pol : NoSentPolicy) {c : PacketFormat} {buf : List Byte} {k : Nat}
    (hlen : c.P + 2 ≤ buf.length) (hfirst : detectFirst c buf = some k) (hk : 0 < k) :
    rxStep pol c buf = (.align k, buf.drop k) := by
  simp [rxStep, windowLength, Nat.not_lt.mpr hlen, hfirst, hk]

/-- R176: the micro-step on a window between two sentinels. -/
theorem rxStep_of_trail (pol : NoSentPolicy) {c : PacketFormat} {buf : List Byte}
    (hlead : buf[0]? = some c.S) (htrail : buf[c.P + 1]? = some c.S) :
    rxStep pol c buf = (.emit (packetAt c buf 0).1 (packetAt c buf 0).2, buf.drop (c.P + 1)) := by
  have hlen : ¬ buf.length < c.P + 2 := by
    have := (List.getElem?_eq_some_iff.mp htrail).1
    omega
  simp [rxStep, windowLength, hlen, (detectFirst_eq_zero_iff c buf).mpr hlead,
    (detectTrail_eq_true_iff c buf).mpr htrail, packetAt]

/-- R177: the micro-step on a full buffer whose candidate has no trailer. -/
theorem rxStep_of_no_trail (pol : NoSentPolicy) {c : PacketFormat} {buf : List Byte}
    (hlen : c.P + 2 ≤ buf.length) (hlead : buf[0]? = some c.S) (htrail : buf[c.P + 1]? ≠ some c.S) :
    rxStep pol c buf = (.skip1, buf.drop 1) := by
  have hnotrail : detectTrail c buf = false :=
    Bool.eq_false_iff.mpr fun h => htrail ((detectTrail_eq_true_iff c buf).mp h)
  simp [rxStep, windowLength, Nat.not_lt.mpr hlen, (detectFirst_eq_zero_iff c buf).mpr hlead, hnotrail]

/-- R176, R187: the packet of a candidate whose body is known is that body, split. -/
theorem packetAt_of_body (c : PacketFormat) (pre body rest : List Byte) (hbody : body.length = c.P)
    (hH : c.H ≤ c.P) : packetAt c (pre ++ c.S :: (body ++ rest)) pre.length = splitBody c body := by
  have hfrom : (pre ++ c.S :: (body ++ rest)).drop (pre.length + 1) = body ++ rest := by
    simp [List.drop_append]
  have hheader : slice (pre ++ c.S :: (body ++ rest)) (pre.length + 1) (pre.length + 1 + c.H) =
      body.take c.H := by
    rw [slice, hfrom, Nat.add_sub_cancel_left, List.take_append_of_le_length (hbody ▸ hH)]
  have hdata : slice (pre ++ c.S :: (body ++ rest)) (pre.length + 1 + c.H) (pre.length + 1 + c.P) =
      body.drop c.H := by
    rw [slice, ← List.drop_drop, hfrom, List.drop_append_of_le_length (hbody ▸ hH),
      List.take_left' (by rw [List.length_drop]; omega)]
  rw [packetAt, hheader, hdata, splitBody]

/-- R113: a header of `H` bytes followed by its data splits into the two. -/
theorem splitBody_append {c : PacketFormat} {hdr dat : List Byte} (hhdr : hdr.length = c.H) :
    splitBody c (hdr ++ dat) = (hdr, dat) := by
  rw [splitBody, List.take_left' hhdr, List.drop_left' hhdr]

/-- Settles O35: the one micro-step is DROP_ALL, which leaves nothing and exits the loop. -/
theorem noSentinelDropsTheWholeBuffer : Obligations.NoSentinelDropsTheWholeBuffer := by
  intro c buf hlen hnone
  have hfirst : detectFirst c buf = none :=
    (firstIndex_eq_none_iff buf c.S).mpr fun hmem => hnone c.S hmem rfl
  have hstep := rxStep_of_first_none Config.noSentPolicy hlen hfirst
  rw [rxRun, rxLoop_succ_of_exits (by rw [hstep]; rfl), hstep]
  rfl

/-- Settles O36: the first sentinel is right after the garbage, so that ALIGN drops just the garbage. -/
theorem garbageBeforeTheSentinelIsDropped : Obligations.GarbageBeforeTheSentinelIsDropped := by
  intro pol c garbage rest hne hgarbage hlen
  have hfirst : detectFirst c (garbage ++ c.S :: rest) = some garbage.length := by
    refine (firstIndex_eq_some_iff _ _ _).mpr ⟨by simp, fun j hj hbyte => ?_⟩
    rw [List.getElem?_append_left hj] at hbyte
    exact hgarbage c.S (List.mem_of_getElem? hbyte) rfl
  rw [rxStep_of_first_pos pol hlen hfirst (List.length_pos_iff.mpr hne), List.drop_left]

/-- Settles O37: both ends of the window are sentinels, and the body between them splits at `H`. -/
theorem framedWindowIsEmittedKeepingItsTrailer :
    Obligations.FramedWindowIsEmittedKeepingItsTrailer := by
  intro pol c hdr dat rest hhdr hdat hsum
  have hbody : (hdr ++ dat).length = c.P := by rw [List.length_append, hhdr, hdat, hsum]
  have hbuf : [c.S] ++ hdr ++ dat ++ [c.S] ++ rest = c.S :: ((hdr ++ dat) ++ c.S :: rest) := by simp
  have hpacket : packetAt c (c.S :: ((hdr ++ dat) ++ c.S :: rest)) 0 = (hdr, dat) :=
    (packetAt_of_body c [] (hdr ++ dat) (c.S :: rest) hbody (by omega)).trans (splitBody_append hhdr)
  have htrail : (c.S :: ((hdr ++ dat) ++ c.S :: rest))[c.P + 1]? = some c.S := by
    rw [List.getElem?_cons_succ, List.getElem?_append_right hbody.le, hbody, Nat.sub_self]
    rfl
  rw [hbuf, rxStep_of_trail pol rfl htrail, hpacket, List.drop_succ_cons, List.drop_left' hbody]

/-- Settles O38: SKIP1 drops the one byte at the front. -/
theorem falseMatchDropsOneByte : Obligations.FalseMatchDropsOneByte := by
  intro pol c rest hlen htrail
  exact rxStep_of_no_trail pol hlen rfl htrail

end Sys2Proof.Machine
end

section
/-! Progress of the loop (42_deframer.md R180): every micro-step but SUSPEND drops at least one byte, so the
buffer's length bounds the number of micro-steps. -/

namespace Sys2Proof.Machine

/-- R182: RETAIN_TAIL keeps at most `P` bytes, and DISCARD_ALL none. -/
theorem noSentRest_length_le (pol : NoSentPolicy) (c : PacketFormat) (buf : List Byte) :
    (noSentRest pol c buf).length ≤ c.P := by
  cases pol with
  | discardAll => exact Nat.zero_le _
  | retainTail =>
    rw [noSentRest, List.length_drop]
    omega

/-- R170: a micro-step after which the loop goes on is not SUSPEND. -/
theorem RxAction.ne_suspend_of_goes_on {a : RxAction} (h : a.exitsLoop = false) : a ≠ .suspend := by
  rintro rfl
  cases h

/-- R180: every micro-step other than SUSPEND shortens the buffer. -/
theorem rxStep_shortens {pol : NoSentPolicy} {c : PacketFormat} {buf : List Byte}
    (h : (rxStep pol c buf).1 ≠ .suspend) : (rxStep pol c buf).2.length < buf.length := by
  obtain ⟨_, hsuspend⟩ | ⟨hlen, _, hdropAll⟩ | ⟨hlen, k, _, hk, halign⟩ | ⟨hlen, _, _, hemit⟩ |
    ⟨hlen, _, _, hskip⟩ := rxStep_cases pol c buf
  · exact absurd (congrArg Prod.fst hsuspend) h
  · rw [hdropAll]
    have := noSentRest_length_le pol c buf
    dsimp only
    omega
  · rw [halign, List.length_drop]
    omega
  · rw [hemit, List.length_drop]
    omega
  · rw [hskip, List.length_drop]
    omega

/-- R180: a loop with more micro-steps allowed than the buffer has bytes ends with SUSPEND or DROP_ALL,
after micro-steps that go on. -/
theorem rxLoop_ends_with_exit (pol : NoSentPolicy) (c : PacketFormat) (fuel : Nat) (buf : List Byte)
    (hfuel : buf.length < fuel) :
    ∃ (before : List RxAction) (last : RxAction), (rxLoop pol c fuel buf).1 = before ++ [last] ∧
      last.exitsLoop = true ∧ (∀ a ∈ before, a.exitsLoop = false) ∧ before.length ≤ buf.length := by
  induction fuel generalizing buf with
  | zero => exact absurd hfuel (Nat.not_lt_zero _)
  | succ fuel ih =>
    cases hexit : (rxStep pol c buf).1.exitsLoop with
    | true =>
      rw [rxLoop_succ_of_exits hexit]
      exact ⟨[], (rxStep pol c buf).1, rfl, hexit, by simp, Nat.zero_le _⟩
    | false =>
      have hshort := rxStep_shortens (RxAction.ne_suspend_of_goes_on hexit)
      obtain ⟨before, last, hactions, hlast, hbefore, hcount⟩ := ih (rxStep pol c buf).2 (by omega)
      rw [rxLoop_succ_of_goes_on hexit]
      refine ⟨(rxStep pol c buf).1 :: before, last, by rw [hactions]; rfl, hlast, ?_, ?_⟩
      · exact List.forall_mem_cons.mpr ⟨hexit, hbefore⟩
      · rw [List.length_cons]
        omega

/-- Settles O40: the bytes that each action drops, case by case, and the bound on the micro-steps. -/
theorem everyMicroStepMakesProgress : Obligations.EveryMicroStepMakesProgress := by
  intro pol c buf
  refine ⟨rxStep_shortens, ?_, rxLoop_ends_with_exit pol c _ buf (Nat.lt_succ_self _)⟩
  obtain ⟨_, hsuspend⟩ | ⟨hlen, _, hdropAll⟩ | ⟨hlen, k, hfirst, hk, halign⟩ | ⟨hlen, _, _, hemit⟩ |
    ⟨hlen, _, _, hskip⟩ := rxStep_cases pol c buf
  · rw [hsuspend]
  · rw [hdropAll]
    exact ⟨hlen, fun hpol => by rw [hpol]; rfl⟩
  · have hin := (List.getElem?_eq_some_iff.mp ((firstIndex_eq_some_iff buf c.S k).mp hfirst).1).1
    rw [halign]
    exact ⟨hk, by rw [List.length_drop]; omega⟩
  · rw [hemit]
    show (buf.drop (c.P + 1)).length + (c.P + 1) = buf.length
    rw [List.length_drop]
    omega
  · rw [hskip]
    show (buf.drop 1).length + 1 = buf.length
    rw [List.length_drop]
    omega

end Sys2Proof.Machine
end

section
/-! A stream read once from the left (42_deframer.md R187): `Scans` passes over one byte or one frame at a time,
reading only bytes that have arrived, so that a longer stream is scanned in the same way; and the candidate
chain is what a scan decides. -/

namespace Sys2Proof.Machine

/-- From position `m` of the stream, the bytes up to position `n` can be decided, and the leading sentinels at
exactly these offsets are accepted. A byte that is not the sentinel is passed over; a sentinel is accepted or
rejected by the byte at its trailing position, which must have arrived. -/
inductive Scans (c : PacketFormat) (st : List Byte) : Nat → List Nat → Nat → Prop
  | done (m : Nat) : Scans c st m [] m
  | pass {m n : Nat} {offsets : List Nat} {b : Byte} (hbyte : st[m]? = some b) (hne : b ≠ c.S)
      (hrest : Scans c st (m + 1) offsets n) : Scans c st m offsets n
  | reject {m n : Nat} {offsets : List Nat} {b : Byte} (hlead : st[m]? = some c.S)
      (htrail : st[m + c.P + 1]? = some b) (hne : b ≠ c.S)
      (hrest : Scans c st (m + 1) offsets n) : Scans c st m offsets n
  | accept {m n : Nat} {offsets : List Nat} (hlead : st[m]? = some c.S)
      (htrail : st[m + c.P + 1]? = some c.S)
      (hrest : Scans c st (m + c.P + 1) offsets n) : Scans c st m (m :: offsets) n

/-- From position `m` on, no sentinel can be decided yet: every trailing position is still to come. -/
def Settled (c : PacketFormat) (st : List Byte) (m : Nat) : Prop :=
  ∀ q, m ≤ q → st[q]? = some c.S → st.length ≤ q + c.P + 1

/-- A scan of the whole stream that stops only where nothing can be decided. -/
structure Decides (c : PacketFormat) (st : List Byte) (offsets : List Nat) (n : Nat) : Prop where
  scans : Scans c st 0 offsets n
  settled : Settled c st n

variable {c : PacketFormat} {st : List Byte} {m n : Nat} {offsets : List Nat}

/-! ## Scans -/

/-- A scan goes on from where another stopped. -/
theorem Scans.trans {n' : Nat} {offsets' : List Nat} (h : Scans c st m offsets n)
    (h' : Scans c st n offsets' n') : Scans c st m (offsets ++ offsets') n' := by
  induction h with
  | done m => exact h'
  | pass hbyte hne _ ih => exact .pass hbyte hne (ih h')
  | reject hlead htrail hne _ ih => exact .reject hlead htrail hne (ih h')
  | accept hlead htrail _ ih => exact .accept hlead htrail (ih h')

/-- Bytes that arrive later change no decision. -/
theorem Scans.append_stream (h : Scans c st m offsets n) (more : List Byte) :
    Scans c (st ++ more) m offsets n := by
  have hkeep {i : Nat} {b : Byte} (hi : st[i]? = some b) : (st ++ more)[i]? = some b := by
    rw [List.getElem?_append_left (List.getElem?_eq_some_iff.mp hi).1, hi]
  induction h with
  | done m => exact .done m
  | pass hbyte hne _ ih => exact .pass (hkeep hbyte) hne ih
  | reject hlead htrail hne _ ih => exact .reject (hkeep hlead) (hkeep htrail) hne ih
  | accept hlead htrail _ ih => exact .accept (hkeep hlead) (hkeep htrail) ih

/-- A scan does not go back. -/
theorem Scans.start_le_stop (h : Scans c st m offsets n) : m ≤ n := by
  induction h with
  | done m => exact le_rfl
  | pass _ _ _ ih => omega
  | reject _ _ _ _ ih => omega
  | accept _ _ _ ih => omega

/-- A scan stays within the stream. -/
theorem Scans.stop_le_length (h : Scans c st m offsets n) (hm : m ≤ st.length) : n ≤ st.length := by
  induction h with
  | done m => exact hm
  | pass hbyte _ _ ih => exact ih (List.getElem?_eq_some_iff.mp hbyte).1
  | reject hlead _ _ _ ih => exact ih (List.getElem?_eq_some_iff.mp hlead).1
  | accept _ htrail _ ih => exact ih (List.getElem?_eq_some_iff.mp htrail).1.le

/-- Every accepted offset is the leading sentinel of a framed window that the scan has consumed. -/
theorem Scans.mem_offsets (h : Scans c st m offsets n) {q : Nat} (hq : q ∈ offsets) :
    m ≤ q ∧ q + c.P + 1 ≤ n ∧ st[q]? = some c.S ∧ st[q + c.P + 1]? = some c.S := by
  induction h with
  | done m => exact absurd hq List.not_mem_nil
  | pass _ _ _ ih =>
    obtain ⟨hle, hwindow⟩ := ih hq
    exact ⟨by omega, hwindow⟩
  | reject _ _ _ _ ih =>
    obtain ⟨hle, hwindow⟩ := ih hq
    exact ⟨by omega, hwindow⟩
  | accept hlead htrail hrest ih =>
    obtain rfl | hq := List.mem_cons.mp hq
    · exact ⟨le_rfl, hrest.start_le_stop, hlead, htrail⟩
    · obtain ⟨hle, hwindow⟩ := ih hq
      exact ⟨by omega, hwindow⟩

/-- R181: a scan accepts offsets in increasing order. -/
theorem Scans.offsets_increasing (h : Scans c st m offsets n) : offsets.Pairwise (· < ·) := by
  induction h with
  | done m => exact .nil
  | pass _ _ _ ih => exact ih
  | reject _ _ _ _ ih => exact ih
  | accept _ _ hrest ih =>
    refine List.pairwise_cons.mpr ⟨fun q hq => ?_, ih⟩
    have := (hrest.mem_offsets hq).1
    omega

/-- Bytes none of whose sentinels has a trailer are passed over, provided their trailing positions have
arrived. -/
theorem scans_nil_of_no_trailer (hmn : m ≤ n) (hn : n ≤ st.length)
    (h : ∀ p, m ≤ p → p < n → st[p]? = some c.S →
      p + c.P + 1 < st.length ∧ st[p + c.P + 1]? ≠ some c.S) : Scans c st m [] n := by
  obtain ⟨d, rfl⟩ := Nat.exists_eq_add_of_le hmn
  clear hmn
  induction d generalizing m with
  | zero => exact .done m
  | succ d ih =>
    have hrest : Scans c st (m + 1) [] (m + (d + 1)) := by
      have hend : m + 1 + d = m + (d + 1) := by omega
      rw [← hend]
      exact ih (by omega) fun p hp hlt => h p (by omega) (by omega)
    have hbyte : st[m]? = some st[m] := List.getElem?_eq_getElem (by omega)
    by_cases hS : st[m] = c.S
    · rw [hS] at hbyte
      obtain ⟨hin, htrail⟩ := h m le_rfl (by omega) hbyte
      rw [List.getElem?_eq_getElem hin] at htrail
      exact .reject hbyte (List.getElem?_eq_getElem hin) (fun hb => htrail (congrArg some hb)) hrest
    · exact .pass hbyte hS hrest

/-- From a position after which no sentinel has a trailer, a scan accepts nothing and gets as far as can be
decided. -/
theorem exists_settled_of_no_trailer (hm : m ≤ st.length)
    (h : ∀ p, m ≤ p → st[p]? = some c.S → st[p + c.P + 1]? ≠ some c.S) :
    ∃ n, Scans c st m [] n ∧ Settled c st n := by
  refine ⟨max m (st.length - (c.P + 1)), scans_nil_of_no_trailer (by omega) (by omega) ?_, ?_⟩
  · exact fun p hp hlt hS => ⟨by omega, h p hp hS⟩
  · intro q hq _
    omega

/-! ## Candidates -/

/-- The candidate that a search from position `m` of the stream finds: the first sentinel at or after `m`. -/
def candidateFrom (c : PacketFormat) (st : List Byte) (m : Nat) : Option Nat :=
  (firstIndex (st.drop m) c.S).map (· + m)

/-- The search finds nothing exactly when no sentinel follows. -/
theorem candidateFrom_eq_none_iff :
    candidateFrom c st m = none ↔ ∀ p, m ≤ p → st[p]? ≠ some c.S := by
  rw [candidateFrom, Option.map_eq_none_iff, firstIndex_eq_none_iff, List.mem_iff_getElem?]
  constructor
  · intro h p hp hS
    exact h ⟨p - m, by rw [List.getElem?_drop, Nat.add_sub_cancel' hp, hS]⟩
  · rintro h ⟨k, hk⟩
    rw [List.getElem?_drop] at hk
    exact h (m + k) (by omega) hk

/-- The search finds the first sentinel. -/
theorem candidateFrom_eq_some_iff {q : Nat} :
    candidateFrom c st m = some q ↔
      m ≤ q ∧ st[q]? = some c.S ∧ ∀ p, m ≤ p → p < q → st[p]? ≠ some c.S := by
  simp only [candidateFrom, Option.map_eq_some_iff, firstIndex_eq_some_iff, List.getElem?_drop]
  constructor
  · rintro ⟨k, ⟨hS, hbefore⟩, rfl⟩
    refine ⟨by omega, by rwa [Nat.add_comm], fun p hp hlt => ?_⟩
    have := hbefore (p - m) (by omega)
    rwa [Nat.add_sub_cancel' hp] at this
  · rintro ⟨hle, hS, hbefore⟩
    refine ⟨q - m, ⟨by rwa [Nat.add_sub_cancel' hle], fun j hj => ?_⟩, by omega⟩
    exact hbefore (m + j) (by omega) (by omega)

/-- A sentinel at the position is itself the candidate. -/
theorem candidateFrom_of_sentinel (hS : st[m]? = some c.S) : candidateFrom c st m = some m :=
  candidateFrom_eq_some_iff.mpr ⟨le_rfl, hS, fun p hp hlt => absurd hlt (by omega)⟩

/-- Another byte at the position is not looked at again. -/
theorem candidateFrom_of_not_sentinel (hS : st[m]? ≠ some c.S) :
    candidateFrom c st m = candidateFrom c st (m + 1) := by
  have hsame (p : Nat) : m ≤ p ∧ st[p]? = some c.S ↔ m + 1 ≤ p ∧ st[p]? = some c.S := by
    constructor
    · rintro ⟨hp, hpS⟩
      have : p ≠ m := fun h => hS (h ▸ hpS)
      exact ⟨by omega, hpS⟩
    · rintro ⟨hp, hpS⟩
      exact ⟨by omega, hpS⟩
  cases hcand : candidateFrom c st (m + 1) with
  | none =>
    rw [candidateFrom_eq_none_iff] at hcand ⊢
    exact fun p hp hpS => hcand p ((hsame p).mp ⟨hp, hpS⟩).1 hpS
  | some q =>
    rw [candidateFrom_eq_some_iff] at hcand ⊢
    obtain ⟨hle, hqS, hbefore⟩ := hcand
    exact ⟨by omega, hqS, fun p hp hlt hpS => hbefore p ((hsame p).mp ⟨hp, hpS⟩).1 hlt hpS⟩

/-! ## The chain -/

/-- The chain ends where no sentinel follows. -/
theorem chainFrom_none (c : PacketFormat) (st : List Byte) (fuel : Nat) :
    chainFrom c st fuel none = ([], none) := by
  cases fuel <;> rfl

/-- The chain stops at a candidate whose trailing position is still to come. -/
theorem chainFrom_of_pending {q : Nat} (hpending : st.length ≤ q + c.P + 1) (fuel : Nat) :
    chainFrom c st fuel (some q) = ([], some q) := by
  cases fuel with
  | zero => rfl
  | succ fuel => exact if_neg (Nat.not_lt.mpr hpending)

/-- The chain emits a candidate with a trailer, and goes on from the trailer. -/
theorem chainFrom_of_trailer {q : Nat} (htrail : st[q + c.P + 1]? = some c.S) (fuel : Nat) :
    chainFrom c st (fuel + 1) (some q) =
      (q :: (chainFrom c st fuel (some (q + c.P + 1))).1,
        (chainFrom c st fuel (some (q + c.P + 1))).2) := by
  have hin := (List.getElem?_eq_some_iff.mp htrail).1
  rw [chainFrom, if_pos hin, if_pos htrail]

/-- The chain leaves a candidate without a trailer, and goes on with a search from the next byte. -/
theorem chainFrom_of_no_trailer {q : Nat} (hin : q + c.P + 1 < st.length)
    (htrail : st[q + c.P + 1]? ≠ some c.S) (fuel : Nat) :
    chainFrom c st (fuel + 1) (some q) = chainFrom c st fuel (candidateFrom c st (q + 1)) := by
  rw [chainFrom, if_pos hin, if_neg htrail, candidateFrom]

/-- Where nothing can be decided, the chain stops at the candidate there is. -/
theorem Settled.chainFrom_eq (h : Settled c st n) (fuel : Nat) :
    chainFrom c st fuel (candidateFrom c st n) = ([], candidateFrom c st n) := by
  cases hcand : candidateFrom c st n with
  | none => exact chainFrom_none c st fuel
  | some q =>
    obtain ⟨hle, hS, _⟩ := candidateFrom_eq_some_iff.mp hcand
    exact chainFrom_of_pending (h q hle hS) fuel

/-- R187: from the candidate at or after `m`, the chain emits what a scan from `m` accepts, and is left with
the candidate at or after the place where the scan stopped. -/
theorem Scans.chainFrom_eq (h : Scans c st m offsets n) (hsettled : Settled c st n) {fuel : Nat}
    (hfuel : st.length ≤ m + fuel) :
    chainFrom c st fuel (candidateFrom c st m) = (offsets, candidateFrom c st n) := by
  induction h generalizing fuel with
  | done m => exact hsettled.chainFrom_eq fuel
  | pass hbyte hne _ ih =>
    rw [candidateFrom_of_not_sentinel (by rwa [hbyte, ne_eq, Option.some_inj])]
    exact ih hsettled (by omega)
  | reject hlead htrail hne _ ih =>
    have hin := (List.getElem?_eq_some_iff.mp htrail).1
    obtain ⟨fuel, rfl⟩ : ∃ k, fuel = k + 1 := ⟨fuel - 1, by omega⟩
    rw [candidateFrom_of_sentinel hlead,
      chainFrom_of_no_trailer hin (by rwa [htrail, ne_eq, Option.some_inj])]
    exact ih hsettled (by omega)
  | accept hlead htrail _ ih =>
    have hin := (List.getElem?_eq_some_iff.mp htrail).1
    obtain ⟨fuel, rfl⟩ : ∃ k, fuel = k + 1 := ⟨fuel - 1, by omega⟩
    rw [candidateFrom_of_sentinel hlead, chainFrom_of_trailer htrail,
      ← candidateFrom_of_sentinel htrail, ih hsettled (by omega)]

/-- R187: the chain over a stream is what a scan of the stream decides. -/
theorem Decides.chain_eq (h : Decides c st offsets n) :
    chain c st = (offsets, candidateFrom c st n) := by
  have hstart : candidateFrom c st 0 = firstIndex st c.S := by simp [candidateFrom]
  rw [chain, ← hstart]
  exact h.scans.chainFrom_eq h.settled (by omega)

/-- The chain's emissions are the packets at the offsets that a scan accepts. -/
theorem Decides.chainPackets_eq (h : Decides c st offsets n) :
    chainPackets c st = offsets.map (packetAt c st) := by
  rw [chainPackets, h.chain_eq]

/-- R187: a scan stops at or before the pending candidate, or the end of the stream. -/
theorem Decides.stop_le_chainStop (h : Decides c st offsets n) : n ≤ chainStop c st := by
  rw [chainStop, h.chain_eq]
  cases hcand : candidateFrom c st n with
  | none => exact h.scans.stop_le_length (Nat.zero_le _)
  | some q => exact (candidateFrom_eq_some_iff.mp hcand).1

/-- R187: no sentinel lies between the place where a scan stops and the pending candidate. -/
theorem Decides.sentinel_not_mem_slice (h : Decides c st offsets n) :
    c.S ∉ slice st n (chainStop c st) := by
  intro hmem
  obtain ⟨k, hk⟩ := List.mem_iff_getElem?.mp hmem
  rw [slice, List.getElem?_take, List.getElem?_drop] at hk
  obtain ⟨hlt, hS⟩ := Option.ite_none_right_eq_some.mp hk
  rw [chainStop, h.chain_eq] at hlt
  cases hcand : candidateFrom c st n with
  | none => exact candidateFrom_eq_none_iff.mp hcand (n + k) (by omega) hS
  | some q =>
    obtain ⟨_, _, hbefore⟩ := candidateFrom_eq_some_iff.mp hcand
    rw [hcand, Option.getD_some] at hlt
    exact hbefore (n + k) (by omega) (by omega) hS

end Sys2Proof.Machine
end

section
/-! The Deframer scans the stream (42_deframer.md R187): when `rbuf` is the stream from some position on, each
micro-step scans from there, the loop goes on until nothing can be decided, and the next chunk takes up the
scan where the last one left it, under either step 2.b policy (R182). -/

namespace Sys2Proof.Machine

variable {c : PacketFormat} {st : List Byte} {m : Nat}

/-- A slice of the stream, seen from the buffer that begins at position `m`. -/
theorem slice_drop (st : List Byte) (m a b : Nat) : slice (st.drop m) a b = slice st (m + a) (m + b) := by
  rw [slice, slice, List.drop_drop, Nat.add_sub_add_left]

/-- The packet at an offset of the stream, seen from the buffer that begins at position `m`. -/
theorem packetAt_drop (c : PacketFormat) (st : List Byte) (m q : Nat) :
    packetAt c (st.drop m) q = packetAt c st (m + q) := by
  simp [packetAt, slice_drop, Nat.add_assoc]

/-- A packet whose body has arrived stays the same when more bytes arrive. -/
theorem packetAt_append_stream (hH : c.H ≤ c.P) {q : Nat} (hq : q + c.P + 1 ≤ st.length)
    (more : List Byte) : packetAt c (st ++ more) q = packetAt c st q := by
  have hslice {a b : Nat} (hab : a ≤ b) (hb : b ≤ st.length) :
      slice (st ++ more) a b = slice st a b := by
    rw [slice, List.drop_append_of_le_length (by omega),
      List.take_append_of_le_length (by rw [List.length_drop]; omega), slice]
  rw [packetAt, hslice (by omega) (by omega), hslice (by omega) (by omega), packetAt]

/-- What step 2.b leaves of the stream's end is a later end of it. -/
theorem noSentRest_drop (pol : NoSentPolicy) (c : PacketFormat) (hm : m ≤ st.length) :
    ∃ n, m ≤ n ∧ n ≤ st.length ∧ noSentRest pol c (st.drop m) = st.drop n := by
  have hsuffix := noSentRest_suffix pol c (st.drop m)
  have hlen := hsuffix.length_le
  rw [List.length_drop] at hlen
  rw [List.suffix_iff_eq_drop, List.drop_drop, List.length_drop] at hsuffix
  exact ⟨_, Nat.le_add_right _ _, by omega, hsuffix⟩

/-- What a run of micro-steps that began with the stream's bytes from position `m` on has done: its packets
are those at the offsets accepted by a scan from `m`, and its buffer begins where the scan stopped. -/
structure ScansRun (c : PacketFormat) (st : List Byte) (m : Nat)
    (result : List (List Byte × List Byte) × List Byte) (offsets : List Nat) (n : Nat) : Prop where
  scans : Scans c st m offsets n
  packets : result.1 = offsets.map (packetAt c st)
  rest : result.2 = st.drop n

/-- R174 to R178: a micro-step scans, and it exits the loop only where nothing can be decided. -/
theorem rxStep_scansRun (pol : NoSentPolicy) (c : PacketFormat) (hm : m ≤ st.length) :
    ∃ offsets n, ScansRun c st m
        (packetsOf [(rxStep pol c (st.drop m)).1], (rxStep pol c (st.drop m)).2) offsets n ∧
      ((rxStep pol c (st.drop m)).1.exitsLoop = true → Settled c st n) := by
  have hat (i : Nat) : (st.drop m)[i]? = st[m + i]? := List.getElem?_drop
  obtain ⟨hshort, hstep⟩ | ⟨_, hfirst, hstep⟩ | ⟨_, k, hfirst, _, hstep⟩ | ⟨_, hfirst, htrail, _⟩ |
    ⟨hlen, hfirst, htrail, hstep⟩ := rxStep_cases pol c (st.drop m)
  · rw [hstep]
    rw [List.length_drop] at hshort
    exact ⟨[], m, ⟨.done m, rfl, rfl⟩, fun _ q hq _ => by omega⟩
  · obtain ⟨n, hmn, hn, hrest⟩ := noSentRest_drop pol c hm
    have hnone : candidateFrom c st m = none := by
      rw [candidateFrom, ← detectFirst, hfirst]
      rfl
    rw [candidateFrom_eq_none_iff] at hnone
    rw [hstep]
    exact ⟨[], n, ⟨scans_nil_of_no_trailer hmn hn fun p hp _ hS => absurd hS (hnone p hp), rfl, hrest⟩,
      fun _ q hq hS => absurd hS (hnone q (hmn.trans hq))⟩
  · have hcand : candidateFrom c st m = some (k + m) := by
      rw [candidateFrom, ← detectFirst, hfirst]
      rfl
    obtain ⟨hle, hS, hbefore⟩ := candidateFrom_eq_some_iff.mp hcand
    have hin := (List.getElem?_eq_some_iff.mp hS).1
    rw [hstep]
    refine ⟨[], k + m, ⟨?_, rfl, by rw [List.drop_drop, Nat.add_comm]⟩, nofun⟩
    exact scans_nil_of_no_trailer hle hin.le fun p hp hlt hpS => absurd hpS (hbefore p hp hlt)
  · rw [detectFirst_eq_zero_iff, hat] at hfirst
    rw [detectTrail_eq_true_iff, hat] at htrail
    rw [rxStep_of_trail pol ((hat 0).trans hfirst) ((hat _).trans htrail), packetAt_drop]
    refine ⟨[m], m + c.P + 1, ⟨.accept hfirst htrail (.done _), rfl, ?_⟩, nofun⟩
    rw [List.drop_drop, Nat.add_assoc]
  · rw [detectFirst_eq_zero_iff, hat] at hfirst
    rw [← Bool.not_eq_true, detectTrail_eq_true_iff, hat] at htrail
    rw [List.length_drop] at hlen
    have hb : st[m + c.P + 1]? = some st[m + c.P + 1] := List.getElem?_eq_getElem (by omega)
    rw [← Nat.add_assoc, hb] at htrail
    rw [hstep]
    refine ⟨[], m + 1, ⟨.reject hfirst hb (fun h => htrail (congrArg some h)) (.done _), rfl, ?_⟩, nofun⟩
    rw [List.drop_drop]

/-- A run of packets continues with another one. -/
theorem ScansRun.append {n n' : Nat} {offsets offsets' : List Nat}
    {first next : List (List Byte × List Byte) × List Byte} (h : ScansRun c st m first offsets n)
    (h' : ScansRun c st n next offsets' n') :
    ScansRun c st m (first.1 ++ next.1, next.2) (offsets ++ offsets') n' where
  scans := h.scans.trans h'.scans
  packets := by rw [h.packets, h'.packets, List.map_append]
  rest := h'.rest

/-- R187: the loop scans until nothing can be decided. -/
theorem rxLoop_scansRun (pol : NoSentPolicy) (c : PacketFormat) {fuel : Nat} (hm : m ≤ st.length)
    (hfuel : (st.drop m).length < fuel) :
    ∃ offsets n, ScansRun c st m
        (packetsOf (rxLoop pol c fuel (st.drop m)).1, (rxLoop pol c fuel (st.drop m)).2) offsets n ∧
      Settled c st n := by
  induction fuel generalizing m with
  | zero => exact absurd hfuel (Nat.not_lt_zero _)
  | succ fuel ih =>
    obtain ⟨offsets, n, hrun, hexits⟩ := rxStep_scansRun pol c hm
    cases hexit : (rxStep pol c (st.drop m)).1.exitsLoop with
    | true =>
      rw [rxLoop_succ_of_exits hexit]
      exact ⟨offsets, n, hrun, hexits hexit⟩
    | false =>
      have hshort : (rxStep pol c (st.drop m)).2.length < (st.drop m).length :=
        rxStep_shortens (RxAction.ne_suspend_of_goes_on hexit)
      have hrest : (rxStep pol c (st.drop m)).2 = st.drop n := hrun.rest
      rw [hrest] at hshort
      obtain ⟨offsets', n', hrun', hsettled⟩ := ih (hrun.scans.stop_le_length hm) (by omega)
      rw [rxLoop_succ_of_goes_on hexit, hrest]
      have hcons (a : RxAction) (l : List RxAction) : packetsOf (a :: l) = packetsOf [a] ++ packetsOf l :=
        List.filterMap_append (l := [a])
      rw [hcons]
      exact ⟨offsets ++ offsets', n', hrun.append hrun', hsettled⟩

/-- R187: a chunk's run scans the longer stream until nothing can be decided. -/
theorem rxRun_scansRun (pol : NoSentPolicy) (c : PacketFormat) (hm : m ≤ st.length) :
    ∃ offsets n, ScansRun c st m
        (packetsOf (rxRun pol c (st.drop m)).1, (rxRun pol c (st.drop m)).2) offsets n ∧
      Settled c st n :=
  rxLoop_scansRun pol c hm (Nat.lt_succ_self _)

/-- More bytes change nothing in what a run has done, but for where its buffer ends. -/
theorem ScansRun.append_stream {n : Nat} {offsets : List Nat}
    {result : List (List Byte × List Byte) × List Byte} (hH : c.H ≤ c.P) (hm : m ≤ st.length)
    (h : ScansRun c st m result offsets n) (more : List Byte) :
    ScansRun c (st ++ more) m (result.1, (st ++ more).drop n) offsets n where
  scans := h.scans.append_stream more
  packets := by
    rw [h.packets]
    refine List.map_congr_left fun q hq => (packetAt_append_stream hH ?_ more).symm
    obtain ⟨_, hstop, _⟩ := h.scans.mem_offsets hq
    exact hstop.trans (h.scans.stop_le_length hm)
  rest := rfl

/-- R171: an empty chunk feeds nothing. -/
theorem feed_empty_chunk (pol : NoSentPolicy) (c : PacketFormat) (buf : List Byte)
    (chunks : List (List Byte)) : feed pol c buf ([] :: chunks) = feed pol c buf chunks := if_pos rfl

/-- R170: a chunk's run comes first, and its buffer is what the next chunk is appended to. -/
theorem feed_cons (pol : NoSentPolicy) (c : PacketFormat) (buf : List Byte) {chunk : List Byte}
    (hchunk : chunk ≠ []) (chunks : List (List Byte)) :
    feed pol c buf (chunk :: chunks) =
      (packetsOf (rxRun pol c (buf ++ chunk)).1 ++ (feed pol c (rxRun pol c (buf ++ chunk)).2 chunks).1,
        (feed pol c (rxRun pol c (buf ++ chunk)).2 chunks).2) := if_neg hchunk

/-- R187: feeding chunks to a Deframer that has scanned the stream so far up to position `m` takes up the scan
of the longer stream there, until nothing can be decided. -/
theorem feed_scansRun (pol : NoSentPolicy) (hH : c.H ≤ c.P) (hm : m ≤ st.length)
    (hsettled : Settled c st m) (chunks : List (List Byte)) :
    ∃ offsets n, ScansRun c (st ++ chunks.flatten) m (feed pol c (st.drop m) chunks) offsets n ∧
      Settled c (st ++ chunks.flatten) n := by
  induction chunks generalizing st m with
  | nil =>
    rw [List.flatten_nil, List.append_nil]
    exact ⟨[], m, ⟨.done m, rfl, rfl⟩, hsettled⟩
  | cons chunk chunks ih =>
    rw [List.flatten_cons, ← List.append_assoc]
    by_cases hempty : chunk = []
    · rw [hempty, feed_empty_chunk, List.append_nil]
      exact ih hm hsettled
    · rw [feed_cons _ _ _ hempty, ← List.drop_append_of_le_length hm]
      have hm' : m ≤ (st ++ chunk).length := by
        rw [List.length_append]
        omega
      obtain ⟨offsets, n, hrun, hsettled'⟩ := rxRun_scansRun pol c hm'
      have hn := hrun.scans.stop_le_length hm'
      obtain ⟨offsets', n', hrun', hsettled''⟩ := ih hn hsettled'
      have hrest : (rxRun pol c ((st ++ chunk).drop m)).2 = (st ++ chunk).drop n := hrun.rest
      rw [hrest]
      exact ⟨offsets ++ offsets', n', (hrun.append_stream hH hm' chunks.flatten).append hrun', hsettled''⟩

/-- R187: from an empty buffer, feeding chunks decides their stream. -/
theorem feed_decides (pol : NoSentPolicy) (hH : c.H ≤ c.P) (chunks : List (List Byte)) :
    ∃ offsets n, Decides c chunks.flatten offsets n ∧
      feed pol c [] chunks = (offsets.map (packetAt c chunks.flatten), chunks.flatten.drop n) := by
  have hstart : Settled c [] 0 := fun _ _ _ => Nat.zero_le _
  obtain ⟨offsets, n, hrun, hsettled⟩ := feed_scansRun pol hH le_rfl hstart chunks
  exact ⟨offsets, n, ⟨hrun.scans, hsettled⟩, Prod.ext hrun.packets hrun.rest⟩

/-- R182, R187: the packets of a fed stream are the chain's, whatever the policy. -/
theorem feed_packets_eq_chainPackets (pol : NoSentPolicy) (hH : c.H ≤ c.P)
    (chunks : List (List Byte)) : (feed pol c [] chunks).1 = chainPackets c chunks.flatten := by
  obtain ⟨offsets, n, hdecides, hfeed⟩ := feed_decides pol hH chunks
  rw [hfeed, hdecides.chainPackets_eq]

/-- Settles O52: under either policy the packets are the chain's; and the tail that DROP_ALL retains comes from
a buffer without a sentinel. -/
theorem noSentinelPolicyDoesNotChangePackets : Obligations.NoSentinelPolicyDoesNotChangePackets := by
  refine ⟨fun c chunks1 chunks2 hH hstream => ?_, fun c buf hdrop => ?_⟩
  · rw [feed_packets_eq_chainPackets _ hH, feed_packets_eq_chainPackets _ hH, hstream]
  · obtain ⟨_, hstep⟩ | ⟨_, hfirst, hstep⟩ | ⟨_, k, _, _, hstep⟩ | ⟨_, _, _, hstep⟩ | ⟨_, _, _, hstep⟩ :=
      rxStep_cases .retainTail c buf
    case inr.inl =>
      rw [hstep]
      refine ⟨noSentRest_length_le .retainTail c buf, fun hmem => ?_⟩
      exact (firstIndex_eq_none_iff buf c.S).mp hfirst ((noSentRest_suffix .retainTail c buf).subset hmem)
    all_goals
      rw [hstep] at hdrop
      cases hdrop

end Sys2Proof.Machine
end

section
/-! RX.INGEST commands one after another (42_deframer.md R170, R187): accepted chunks feed the Deframer, so that
at the start of a session the packets are the candidate chain's, in every chunking. -/

namespace Sys2Proof.Machine

/-- What accepted RX.INGEST commands have done to `s`, but for their responses: the packets and the residual
buffer are the Deframer's, fed with the chunks, and nothing else of the session has changed. -/
structure Ingested (s : State) (chunks : List (List Byte)) (t : State) : Prop where
  active : t.active = s.active
  cfg : t.cfg = s.cfg
  params : t.params = s.params
  rxOut : t.rxOut = s.rxOut ++ (feed .discardAll s.cfg s.rbuf chunks).1
  rbuf : t.rbuf = (feed .discardAll s.cfg s.rbuf chunks).2

/-- R170: RX.INGEST always has a next state. -/
theorem execRxIngest_next (chunk : List Byte) (s : State) : ∃ t, execRxIngest chunk s = .next t := by
  rw [execRxIngest]
  split
  · split
    · exact ⟨_, rfl⟩
    · split <;> exact ⟨_, rfl⟩
  · exact ⟨_, rfl⟩

/-- R170, R171: one accepted RX.INGEST feeds its chunk. -/
theorem exec_rxIngest_ingested {chunk : List Byte} {s : State} (hactive : s.active = .rx)
    (hchunk : chunk.length ≤ s.params.chunkMax) :
    ∃ t, exec (.rxIngest chunk) s = .next t ∧ Ingested s [chunk] t := by
  obtain ⟨t, ht⟩ := execRxIngest_next chunk s
  refine ⟨t, ht, ?_⟩
  obtain ⟨_, hover, _⟩ | ⟨_, rfl, rfl⟩ | ⟨_, hne, _, rfl⟩ | ⟨hother, _⟩ := execRxIngest_cases ht
  · exact absurd hchunk (Nat.not_le.mpr hover)
  · exact ⟨by simp, by simp, by simp, by simp [feed], by simp [feed]⟩
  · have hfeed := feed_cons .discardAll s.cfg s.rbuf hne []
    rw [feed, List.append_nil] at hfeed
    refine ⟨by simp, by simp, by simp, ?_, ?_⟩
    · rw [State.rxOut_respond, State.rxOut_emitAll, hfeed]
      rfl
    · rw [State.respond_rbuf, State.emitAll_rbuf, State.setRbuf_rbuf, hfeed]
      rfl
  · exact absurd hactive hother

/-- Feeding the first chunk and then the others. -/
theorem feed_cons_eq (pol : NoSentPolicy) (c : PacketFormat) (buf chunk : List Byte)
    (chunks : List (List Byte)) :
    feed pol c buf (chunk :: chunks) =
      ((feed pol c buf [chunk]).1 ++ (feed pol c (feed pol c buf [chunk]).2 chunks).1,
        (feed pol c (feed pol c buf [chunk]).2 chunks).2) := by
  by_cases hempty : chunk = []
  · rw [hempty, feed_empty_chunk, feed_empty_chunk]
    rfl
  · rw [feed_cons _ _ _ hempty, feed_cons _ _ _ hempty, feed, List.append_nil]

/-- The first command and then the others. -/
theorem Ingested.cons {s t u : State} {chunk : List Byte} {chunks : List (List Byte)}
    (first : Ingested s [chunk] u) (rest : Ingested u chunks t) : Ingested s (chunk :: chunks) t where
  active := rest.active.trans first.active
  cfg := rest.cfg.trans first.cfg
  params := rest.params.trans first.params
  rxOut := by
    rw [rest.rxOut, first.rxOut, first.cfg, first.rbuf, feed_cons_eq _ _ _ chunk chunks,
      List.append_assoc]
  rbuf := by rw [rest.rbuf, first.cfg, first.rbuf, feed_cons_eq _ _ _ chunk chunks]

/-- Accepted RX.INGEST commands run to the end and feed their chunks. -/
theorem ingestAll_ingested {chunks : List (List Byte)} {s : State} (hactive : s.active = .rx)
    (hchunks : ∀ chunk ∈ chunks, chunk.length ≤ s.params.chunkMax) :
    ∃ t, ingestAll chunks s = .next t ∧ Ingested s chunks t := by
  induction chunks generalizing s with
  | nil => exact ⟨s, rfl, rfl, rfl, rfl, (List.append_nil _).symm, rfl⟩
  | cons chunk chunks ih =>
    obtain ⟨hchunk, hchunks⟩ := List.forall_mem_cons.mp hchunks
    obtain ⟨u, hu, first⟩ := exec_rxIngest_ingested hactive hchunk
    obtain ⟨t, ht, rest⟩ := ih (first.active.trans hactive) (by rwa [first.params])
    exact ⟨t, by rw [ingestAll, hu]; exact ht, first.cons rest⟩

/-- R21: in a session, the header and the data make up the packet. -/
theorem sizes_sum_of_ready {s : State} {chunks : List (List Byte)} (hready : RxReady s chunks) :
    s.cfg.H + s.cfg.D = s.cfg.P := by
  obtain ⟨_, _, ⟨_, _, hsum⟩, _⟩ := hready
  exact hsum

/-- R187: at the start of a session, RX.INGEST commands decide their stream: the packets are those at the
accepted offsets, and `rbuf` begins where the scan stopped. -/
theorem ingestAll_decides {s : State} {chunks : List (List Byte)} (hready : RxReady s chunks) :
    ∃ t offsets n, ingestAll chunks s = .next t ∧ Ingested s chunks t ∧
      Decides s.cfg chunks.flatten offsets n ∧
      t.rxOut = s.rxOut ++ offsets.map (packetAt s.cfg chunks.flatten) ∧
      t.rbuf = chunks.flatten.drop n := by
  have hsum := sizes_sum_of_ready hready
  obtain ⟨hactive, hempty, _, hchunks⟩ := hready
  obtain ⟨t, ht, hingested⟩ := ingestAll_ingested hactive hchunks
  obtain ⟨offsets, n, hdecides, hfeed⟩ :=
    feed_decides .discardAll (c := s.cfg) (by omega) chunks
  refine ⟨t, offsets, n, ht, hingested, hdecides, ?_, ?_⟩
  · rw [hingested.rxOut, hempty, hfeed]
  · rw [hingested.rbuf, hempty, hfeed]

/-- Settles O48: the run's scan decides the stream, and the chain is what such a scan decides. -/
theorem packetsAreTheCandidateChains : Obligations.PacketsAreTheCandidateChains := by
  intro s chunks hready
  obtain ⟨t, offsets, n, ht, _, hdecides, hrxOut, hrbuf⟩ := ingestAll_decides hready
  refine ⟨t, ht, ?_, n, hrbuf, hdecides.stop_le_chainStop, hdecides.sentinel_not_mem_slice⟩
  rw [hrxOut, hdecides.chainPackets_eq]

/-- Settles O49: both runs emit the chain's packets of the one stream. -/
theorem chunkBoundariesDoNotChangePackets : Obligations.ChunkBoundariesDoNotChangePackets := by
  intro s t1 t2 chunks1 chunks2 hready1 hready2 hstream h1 h2
  obtain ⟨u1, hu1, hrxOut1, _⟩ := packetsAreTheCandidateChains s chunks1 hready1
  obtain ⟨u2, hu2, hrxOut2, _⟩ := packetsAreTheCandidateChains s chunks2 hready2
  obtain rfl : u1 = t1 := by simpa [hu1] using h1
  obtain rfl : u2 = t2 := by simpa [hu2] using h2
  rw [hrxOut1, hrxOut2, hstream]

/-- Settles O50: a scan accepts offsets in increasing order, each the leader of a framed window. -/
theorem packetsLeaveInStreamOrder : Obligations.PacketsLeaveInStreamOrder := by
  intro s chunks hready
  obtain ⟨t, offsets, n, ht, _, hdecides, hrxOut, _⟩ := ingestAll_decides hready
  refine ⟨offsets, hdecides.scans.offsets_increasing, fun q hq => ?_, t, ht, hrxOut⟩
  obtain ⟨_, _, hwindow⟩ := hdecides.scans.mem_offsets hq
  exact hwindow

/-- R186: of the frames that a longer stream's scan accepts, those accepted after the scan had settled on the
stream so far are the ones whose trailing position is among the later bytes. -/
theorem filter_offsets_eq_later {c : PacketFormat} {st more : List Byte} {m n : Nat}
    {earlier later : List Nat} (hearlier : Decides c st earlier m)
    (hlater : Scans c (st ++ more) m later n) :
    (earlier ++ later).filter (fun q => st.length ≤ q + c.P + 1) = later := by
  have hm := hearlier.scans.stop_le_length (Nat.zero_le _)
  have hnone : earlier.filter (fun q => st.length ≤ q + c.P + 1) = [] := by
    refine List.filter_eq_nil_iff.mpr fun q hq => ?_
    obtain ⟨_, _, _, htrail⟩ := hearlier.scans.mem_offsets hq
    have hin := (List.getElem?_eq_some_iff.mp htrail).1
    simpa using hin
  have hall : later.filter (fun q => st.length ≤ q + c.P + 1) = later := by
    refine List.filter_eq_self.mpr fun q hq => decide_eq_true ?_
    obtain ⟨hle, _, hlead, _⟩ := hlater.mem_offsets hq
    by_contra hshort
    rw [List.getElem?_append_left (by omega)] at hlead
    exact hshort (hearlier.settled q hle hlead)
  rw [List.filter_append, hnone, hall, List.nil_append]

/-- Settles O51: the chunk's own run takes up the scan of the stream so far, and so accepts exactly the frames
whose trailer the chunk holds. -/
theorem frameIsEmittedWithItsTrailer : Obligations.FrameIsEmittedWithItsTrailer := by
  intro s t chunks chunk hready ht
  have hsum := sizes_sum_of_ready hready
  obtain ⟨hactive, hempty, hlegal, hchunks⟩ := hready
  rw [List.forall_mem_append, List.forall_mem_singleton] at hchunks
  obtain ⟨hbefore, hchunk⟩ := hchunks
  obtain ⟨u, earlier, m, hu, first, hdecides, _, hrbuf⟩ :=
    ingestAll_decides ⟨hactive, hempty, hlegal, hbefore⟩
  obtain rfl : u = t := by simpa [hu] using ht
  obtain ⟨v, hv, last⟩ := ingestAll_ingested (s := u) (chunks := [chunk])
    (first.active.trans hactive) (by rwa [List.forall_mem_singleton, first.params])
  have hm := hdecides.scans.stop_le_length (Nat.zero_le _)
  obtain ⟨later, n, hrun, hsettled⟩ :=
    feed_scansRun .discardAll (c := s.cfg) (by omega) hm hdecides.settled [chunk]
  rw [List.flatten_singleton] at hrun hsettled
  have hwhole : Decides s.cfg (chunks.flatten ++ chunk) (earlier ++ later) n :=
    ⟨(hdecides.scans.append_stream chunk).trans hrun.scans, hsettled⟩
  refine ⟨v, hv, ?_⟩
  rw [last.rxOut, first.cfg, hrbuf, hrun.packets, hwhole.chain_eq,
    filter_offsets_eq_later hdecides hrun.scans]

end Sys2Proof.Machine
end

section
/-! Particular streams (42_deframer.md R188 to R190, 30_encoding.md R91): for each, the offsets that a scan of
the stream accepts; RX.INGEST then emits the packets at those offsets, in every chunking. -/

namespace Sys2Proof.Machine

variable {c : PacketFormat} {st : List Byte}

/-- From the start of a session, RX.INGEST emits the packets at the offsets that a scan of the stream
accepts, in every chunking. -/
theorem emits_of_decides {s : State} {chunks : List (List Byte)} {offsets : List Nat} {n : Nat}
    (hready : RxReady s chunks) (hdecides : Decides s.cfg chunks.flatten offsets n) :
    Emits s chunks (offsets.map (packetAt s.cfg chunks.flatten)) := by
  obtain ⟨t, ht, hrxOut, _⟩ := packetsAreTheCandidateChains s chunks hready
  exact ⟨t, ht, by rw [hrxOut, hdecides.chainPackets_eq]⟩

/-- R21: in a session, a header and data of the format's sizes are a packet body. -/
theorem body_length_of_ready {s : State} {chunks : List (List Byte)} {hdr dat : List Byte}
    (hready : RxReady s chunks) (hhdr : hdr.length = s.cfg.H) (hdat : dat.length = s.cfg.D) :
    (hdr ++ dat).length = s.cfg.P := by
  rw [List.length_append, hhdr, hdat, sizes_sum_of_ready hready]

/-! ## One frame in a stream -/

/-- When no sentinel before a framed window has a trailer of its own, that window is the first that a scan of
the stream accepts. -/
theorem scans_first_frame {q : Nat} (hlead : st[q]? = some c.S) (htrail : st[q + c.P + 1]? = some c.S)
    (hbefore : ∀ p < q, st[p]? = some c.S → st[p + c.P + 1]? ≠ some c.S) :
    Scans c st 0 [q] (q + c.P + 1) := by
  have hin := (List.getElem?_eq_some_iff.mp htrail).1
  have hnoise : Scans c st 0 [] q :=
    scans_nil_of_no_trailer (Nat.zero_le q) (by omega) fun p _ hlt hS => ⟨by omega, hbefore p hlt hS⟩
  exact hnoise.trans (.accept hlead htrail (.done _))

/-- R89: a frame inside a stream begins and ends with the sentinel. -/
theorem getElem?_frame_ends {pre hdr dat post : List Byte} (hbody : (hdr ++ dat).length = c.P) :
    (pre ++ frame c hdr dat ++ post)[pre.length]? = some c.S ∧
      (pre ++ frame c hdr dat ++ post)[pre.length + c.P + 1]? = some c.S := by
  rw [List.append_assoc, Nat.add_assoc, List.getElem?_append_right le_rfl,
    List.getElem?_append_right (Nat.le_add_right _ _), Nat.sub_self, Nat.add_sub_cancel_left,
    frame_eq_cons, ← hbody]
  simp

/-- R176: the packet of a frame inside a stream is what was framed. -/
theorem packetAt_frame {pre hdr dat post : List Byte} (hhdr : hdr.length = c.H)
    (hbody : (hdr ++ dat).length = c.P) :
    packetAt c (pre ++ frame c hdr dat ++ post) pre.length = (hdr, dat) := by
  have hH : c.H ≤ c.P := by
    rw [← hbody, ← hhdr, List.length_append]
    omega
  have hstream : pre ++ frame c hdr dat ++ post =
      pre ++ c.S :: ((hdr ++ dat) ++ ([c.S] ++ post)) := by
    simp [frame_eq_cons]
  rw [hstream, packetAt_of_body c pre (hdr ++ dat) _ hbody hH, splitBody_append hhdr]

/-- Settles O53: no idle byte is a sentinel, and the trailer's own trailing position holds an idle byte or
nothing. -/
theorem frameWithIdlePaddingRoundTrips : Obligations.FrameWithIdlePaddingRoundTrips := by
  intro s chunks hdr dat a b hready hidle hhdr hdat hstream
  have hbody := body_length_of_ready hready hhdr hdat
  have hframe : (frame s.cfg hdr dat).length = s.cfg.P + 2 := by
    rw [frame_length, ← List.length_append, hbody]
  have hends := getElem?_frame_ends (pre := List.replicate a s.cfg.I)
    (post := List.replicate b s.cfg.I) hbody
  have hpacket := packetAt_frame (pre := List.replicate a s.cfg.I)
    (post := List.replicate b s.cfg.I) hhdr hbody
  rw [← hstream, List.length_replicate] at hends hpacket
  obtain ⟨hlead, htrail⟩ := hends
  have hleft (p : Nat) (hp : p < a) : chunks.flatten[p]? ≠ some s.cfg.S := by
    rw [hstream, List.append_assoc, List.getElem?_append_left (by rwa [List.length_replicate]),
      List.getElem?_replicate_of_lt hp]
    exact fun h => hidle (Option.some_inj.mp h)
  have hright (p : Nat) (hp : a + s.cfg.P + 2 ≤ p) : chunks.flatten[p]? ≠ some s.cfg.S := by
    rw [hstream, List.getElem?_append_right (by simp [hframe]; omega)]
    exact fun h => hidle (List.eq_of_mem_replicate (List.mem_of_getElem? h)).symm
  have hin := (List.getElem?_eq_some_iff.mp htrail).1
  have hframed := scans_first_frame hlead htrail fun p hp hS => absurd hS (hleft p hp)
  obtain ⟨n, hrest, hsettled⟩ := exists_settled_of_no_trailer hin.le
    fun p hp _ => hright (p + s.cfg.P + 1) (by omega)
  rw [← hpacket]
  exact emits_of_decides hready ⟨hframed.trans hrest, hsettled⟩

/-- R189, R190: when no sentinel of the noise has a trailer, a scan of the noise and the frame after it accepts
just the frame, and stops at its trailer. -/
theorem decides_noise_frame {noise hdr dat : List Byte} (hbody : (hdr ++ dat).length = c.P)
    (hstream : st = noise ++ frame c hdr dat)
    (hnoise : ∀ p < noise.length, st[p]? = some c.S → st[p + c.P + 1]? ≠ some c.S) :
    Decides c st [noise.length] (noise.length + c.P + 1) := by
  have hends := getElem?_frame_ends (pre := noise) (post := []) hbody
  rw [List.append_nil, ← hstream] at hends
  obtain ⟨hlead, htrail⟩ := hends
  have hlen : st.length = noise.length + c.P + 2 := by
    rw [hstream, List.length_append, frame_length, ← List.length_append, hbody, Nat.add_assoc]
  exact ⟨scans_first_frame hlead htrail hnoise, fun q hq _ => by omega⟩

/-- R189: after the noise and the frame, `rbuf` holds the frame's trailing sentinel alone. -/
theorem drop_eq_trailer_of_decides {noise hdr dat : List Byte} {n : Nat}
    (hbody : (hdr ++ dat).length = c.P) (hstream : st = noise ++ frame c hdr dat)
    (hframe : Decides c st [noise.length] (noise.length + c.P + 1))
    (hdecides : Decides c st [noise.length] n) : st.drop n = [c.S] := by
  obtain ⟨_, hle, _, htrail⟩ := hdecides.scans.mem_offsets (List.mem_singleton.mpr rfl)
  have hstop := hdecides.stop_le_chainStop
  rw [chainStop, hframe.chain_eq, candidateFrom_of_sentinel htrail, Option.getD_some] at hstop
  obtain rfl : n = noise.length + c.P + 1 := le_antisymm hstop hle
  rw [hstream, Nat.add_assoc, ← List.drop_drop, List.drop_left, frame_eq_cons, List.drop_succ_cons,
    ← hbody]
  exact List.drop_left

/-- Settles O54: the scan of the stream accepts the frame alone, and what is left begins at its trailer. -/
theorem frameAfterNoiseIsFound : Obligations.FrameAfterNoiseIsFound := by
  intro s chunks noise hdr dat hready hhdr hdat hstream hnoise
  have hbody := body_length_of_ready hready hhdr hdat
  have hframe := decides_noise_frame hbody hstream hnoise
  obtain ⟨t, offsets, n, ht, _, hdecides, hrxOut, hrbuf⟩ := ingestAll_decides hready
  obtain rfl : offsets = [noise.length] :=
    congrArg Prod.fst (hdecides.chain_eq.symm.trans hframe.chain_eq)
  refine ⟨t, ht, ?_, by rw [hrbuf, drop_eq_trailer_of_decides hbody hstream hframe hdecides]⟩
  have hpacket := packetAt_frame (pre := noise) (post := []) hhdr hbody
  rw [List.append_nil, ← hstream] at hpacket
  rw [hrxOut, List.map_singleton, hpacket]

/-- Settles O55: at every sentinel of the damaged frame a whole window has arrived and its trailer is missing;
the scan of the stream accepts the genuine frame alone. -/
theorem damagedFrameDoesNotHideTheNext : Obligations.DamagedFrameDoesNotHideTheNext := by
  intro s chunks rest hdr dat hready hhdr hdat _ hstream hnoise
  have hbody := body_length_of_ready hready hhdr hdat
  have hlen : chunks.flatten.length = (s.cfg.S :: rest).length + s.cfg.P + 2 := by
    rw [hstream, List.length_append, frame_length, ← List.length_append, hbody, Nat.add_assoc]
  refine ⟨fun p hp hS => ?_, ?_⟩
  · rw [← List.drop_drop]
    refine rxStep_of_no_trail _ (by rw [List.length_drop]; omega) ?_ ?_
    · rw [List.getElem?_drop]
      exact hS
    · rw [List.getElem?_drop]
      exact hnoise p hp hS
  · have hemits := emits_of_decides hready (decides_noise_frame hbody hstream hnoise)
    have hpacket := packetAt_frame (pre := s.cfg.S :: rest) (post := []) hhdr hbody
    rw [List.append_nil, ← hstream] at hpacket
    rwa [List.map_singleton, hpacket] at hemits

/-! ## Frames that share their sentinels -/

/-- R91: the first frame of the shared form is its sentinel and its body. -/
theorem sharedStream_cons (c : PacketFormat) (body : List Byte) (bodies : List (List Byte)) :
    sharedStream c (body :: bodies) = c.S :: (body ++ sharedStream c bodies) := rfl

/-- R91: the shared form begins with the sentinel. -/
theorem sharedStream_head? (c : PacketFormat) (bodies : List (List Byte)) :
    (sharedStream c bodies)[0]? = some c.S := by
  cases bodies <;> rfl

/-- R91: each frame of the shared form adds its body and one sentinel. -/
theorem sharedStream_length {bodies : List (List Byte)} (hbodies : ∀ body ∈ bodies, body.length = c.P) :
    (sharedStream c bodies).length = bodies.length * (c.P + 1) + 1 := by
  induction bodies with
  | nil => simp [sharedStream]
  | cons body bodies ih =>
    obtain ⟨hbody, hbodies⟩ := List.forall_mem_cons.mp hbodies
    rw [sharedStream_cons, List.length_cons, List.length_append, hbody, ih hbodies, List.length_cons,
      Nat.succ_mul]
    omega

/-- R176, R187: from a shared sentinel, a scan goes from each shared sentinel to the next, whatever the bodies
hold, and stops at the last one. -/
theorem scans_sharedStream (hH : c.H ≤ c.P) {bodies : List (List Byte)}
    (hbodies : ∀ body ∈ bodies, body.length = c.P) (pre : List Byte)
    (hstream : st = pre ++ sharedStream c bodies) :
    ∃ offsets, Scans c st pre.length offsets (pre.length + bodies.length * (c.P + 1)) ∧
      offsets.map (packetAt c st) = bodies.map (splitBody c) := by
  induction bodies generalizing pre with
  | nil => exact ⟨[], by simpa using Scans.done pre.length, rfl⟩
  | cons body bodies ih =>
    obtain ⟨hbody, hbodies⟩ := List.forall_mem_cons.mp hbodies
    have hstream' : st = (pre ++ c.S :: body) ++ sharedStream c bodies := by
      rw [hstream, sharedStream_cons]
      simp
    have hnext : (pre ++ c.S :: body).length = pre.length + c.P + 1 := by
      rw [List.length_append, List.length_cons, hbody, Nat.add_assoc]
    obtain ⟨offsets, hscans, hpackets⟩ := ih hbodies _ hstream'
    have hlead : st[pre.length]? = some c.S := by
      rw [hstream, List.getElem?_append_right le_rfl, Nat.sub_self, sharedStream_head?]
    have htrail : st[pre.length + c.P + 1]? = some c.S := by
      rw [hstream', List.getElem?_append_right hnext.le, hnext, Nat.sub_self, sharedStream_head?]
    have hpacket : packetAt c st pre.length = splitBody c body := by
      rw [hstream, sharedStream_cons, packetAt_of_body c pre body _ hbody hH]
    have hend : (pre ++ c.S :: body).length + bodies.length * (c.P + 1) =
        pre.length + (body :: bodies).length * (c.P + 1) := by
      rw [hnext, List.length_cons, Nat.succ_mul]
      omega
    rw [hend, hnext] at hscans
    exact ⟨pre.length :: offsets, .accept hlead htrail hscans, by
      rw [List.map_cons, List.map_cons, hpacket, hpackets]⟩

/-- Settles O56: the scan's accepted offsets are the shared sentinels but the last, which is settled as the
last byte of the stream. -/
theorem sharedSentinelFramesAreAllEmitted : Obligations.SharedSentinelFramesAreAllEmitted := by
  intro s chunks bodies hready hbodies hstream
  have hlen : chunks.flatten.length = bodies.length * (s.cfg.P + 1) + 1 := by
    rw [hstream, sharedStream_length hbodies]
  have hsum := sizes_sum_of_ready hready
  obtain ⟨offsets, hscans, hpackets⟩ :=
    scans_sharedStream (c := s.cfg) (by omega) hbodies [] hstream
  rw [List.length_nil, Nat.zero_add] at hscans
  refine ⟨hlen, ?_⟩
  rw [← hpackets]
  exact emits_of_decides hready ⟨hscans, fun q hq _ => by omega⟩

end Sys2Proof.Machine
end

section
/-! How a command ends (60_exceptions.md R220, R222): with an OK response after whatever it did, or with an
error raised in the very state it was given. A status other than OK therefore tells that nothing was done. -/

namespace Sys2Proof.Machine

/-- The two ways a command given in `s` can end: an OK response, in whatever state `u` its work came to, or
an error raised in `s` itself. -/
inductive CommandEnd (s : State) : State → Prop
  | ok (u : State) (info : List Byte) : CommandEnd s (u.respond (statusOk :: info))
  | error (e : CommandError) : CommandEnd s (s.raise e)

/-- R94: refusing a command not served is raising an error. -/
theorem CommandEnd.notServed (s : State) (k : Opcode) : CommandEnd s (s.raiseNotServed k) :=
  .error (.illegalCommand (some k.byte))

/-- R222: each meaning responds OK or raises its error before it has changed anything. -/
theorem commandEnd_of_exec {i : Instr} {s t : State} (h : exec i s = .next t) : CommandEnd s t := by
  cases i with
  | cfgLoad =>
    obtain ⟨_, _, rfl⟩ | ⟨_, _, rfl⟩ | ⟨_, rfl⟩ := execCfgLoad_cases h
    · exact .ok _ _
    · exact .error _
    · exact .notServed s _
  | rxIngest =>
    obtain ⟨_, _, rfl⟩ | ⟨_, _, rfl⟩ | ⟨_, _, _, rfl⟩ | ⟨_, rfl⟩ := execRxIngest_cases h
    · exact .error _
    · exact .ok _ _
    · exact .ok _ _
    · exact .notServed s _
  | rxReset =>
    obtain ⟨_, rfl⟩ | ⟨_, rfl⟩ := execRxReset_cases h
    · exact .ok _ _
    · exact .notServed s _
  | txFrameSelf =>
    obtain ⟨_, _, rfl⟩ | ⟨_, _, rfl⟩ | ⟨_, rfl⟩ := execTxFrameSelf_cases h
    · exact .ok _ _
    · exact .error _
    · exact .notServed s _
  | txFramePair =>
    obtain ⟨_, _, rfl⟩ | ⟨_, _, rfl⟩ | ⟨_, rfl⟩ := execTxFramePair_cases h
    · exact .ok _ _
    · exact .error _
    · exact .notServed s _
  | pktSplit =>
    obtain ⟨_, _, rfl⟩ | ⟨_, _, rfl⟩ | ⟨_, rfl⟩ := execPktSplit_cases h
    · exact .ok _ _
    · exact .error _
    · exact .notServed s _

/-- R53, R81: the step that takes a descriptor the decoder accepts runs its command. -/
theorem step_of_decode_ok {s : State} {a : Iface} {turns : List Turn} {d : List Byte}
    {rest : List (List Byte)} {i : Instr} (hturn : s.schedule = .serve a :: turns)
    (hwaiting : s.pending a = d :: rest) (hok : decode d = .ok i) :
    step s = exec i (s.tookTurn.tookCommand a rest) := by
  simp only [step, fetch, hturn, hwaiting, hok]

/-- R81, R222: a step that takes a descriptor ends as its command does, from the state left by taking it. -/
theorem commandEnd_of_step {s t : State} {a : Iface} {turns : List Turn} {d : List Byte}
    {rest : List (List Byte)} (hturn : s.schedule = .serve a :: turns)
    (hwaiting : s.pending a = d :: rest) (hstep : step s = .next t) :
    CommandEnd (s.tookTurn.tookCommand a rest) t := by
  cases hdecode : decode d with
  | error e =>
    rw [step_of_decode_error hturn hwaiting hdecode] at hstep
    cases hstep
    exact .error (.illegalCommand e.opcodeInfo)
  | ok i =>
    rw [step_of_decode_ok hturn hwaiting hdecode] at hstep
    exact commandEnd_of_exec hstep

/-- R81: after a response, the last transaction is that response. -/
theorem State.getLast?_trace_respond (s : State) (bytes : List Byte) :
    (s.respond bytes).trace.getLast? = some (.response s.active bytes) :=
  List.getLast?_concat

/-- R222: a command whose last response has a status other than OK has only given that response. -/
theorem CommandEnd.eq_respond_of_status_ne_ok {s t : State} {on : Iface} {status : Byte}
    {info : List Byte} (hend : CommandEnd s t)
    (hlast : t.trace.getLast? = some (.response on (status :: info))) (hstatus : status ≠ statusOk) :
    t = s.respond (status :: info) := by
  cases hend with
  | ok u okInfo =>
    rw [State.getLast?_trace_respond] at hlast
    cases hlast
    exact absurd rfl hstatus
  | error e =>
    rw [State.raise_eq_respond, State.getLast?_trace_respond, Option.some.injEq,
      Event.response.injEq] at hlast
    rw [State.raise_eq_respond, hlast.2]

/-- Settles O14: a status other than OK shuts out the OK ending, so the step has only raised its error in
the state left by taking the descriptor. -/
theorem failedCommandChangesNothing : Obligations.FailedCommandChangesNothing := by
  intro s t a turns d rest on status info hturn hwaiting hstep hlast hstatus
  have hend := commandEnd_of_step hturn hwaiting hstep
  rw [hend.eq_respond_of_status_ne_ok hlast hstatus, tookTurn_tookCommand_eq hturn]
  simp only [State.respond, State.deliver, State.setPending_trace]

end Sys2Proof.Machine
end

section
/-! Two frames back to back (70_reset_and_hazards.md R258): the loop of RX.INGEST micro-step by
micro-step, and the candidate that the trailer of the first frame makes with the second frame after it. -/

namespace Sys2Proof.Machine

variable {pol : NoSentPolicy} {c : PacketFormat}

/-! ## The loop, micro-step by micro-step -/

/-- R180: a loop allowed more micro-steps than the buffer has bytes is the run to suspension. -/
theorem rxLoop_eq_rxRun {fuel : Nat} {buf : List Byte} (hfuel : buf.length < fuel) :
    rxLoop pol c fuel buf = rxRun pol c buf := by
  have hagree : ∀ fuel' > buf.length, rxLoop pol c fuel buf = rxLoop pol c fuel' buf := by
    induction fuel generalizing buf with
    | zero => exact absurd hfuel (Nat.not_lt_zero _)
    | succ fuel ih =>
      intro fuel' hfuel'
      obtain ⟨fuel', rfl⟩ := Nat.exists_eq_add_of_lt hfuel'
      cases hexit : (rxStep pol c buf).1.exitsLoop with
      | true => rw [rxLoop_succ_of_exits hexit, rxLoop_succ_of_exits hexit]
      | false =>
        have hshort := rxStep_shortens (RxAction.ne_suspend_of_goes_on hexit)
        rw [rxLoop_succ_of_goes_on hexit, rxLoop_succ_of_goes_on hexit,
          ih (by omega) (buf.length + fuel') (by omega)]
  exact hagree _ (Nat.lt_succ_self _)

/-- R170: a micro-step after which the loop goes on comes first, and the run goes on with what it left. -/
theorem rxRun_of_goes_on {buf rest : List Byte} {a : RxAction} (hstep : rxStep pol c buf = (a, rest))
    (hgoes : a.exitsLoop = false) :
    rxRun pol c buf = (a :: (rxRun pol c rest).1, (rxRun pol c rest).2) := by
  have hexit : (rxStep pol c buf).1.exitsLoop = false := by rw [hstep, hgoes]
  have hshort := rxStep_shortens (RxAction.ne_suspend_of_goes_on hexit)
  rw [rxRun, rxLoop_succ_of_goes_on hexit, rxLoop_eq_rxRun hshort, hstep]

/-- R178: a buffer shorter than the window is kept, and the loop waits for more data. -/
theorem rxRun_of_short {buf : List Byte} (hshort : buf.length < c.P + 2) :
    rxRun pol c buf = ([.suspend], buf) := by
  have hstep : rxStep pol c buf = (.suspend, buf) := by simp [rxStep, windowLength, hshort]
  rw [rxRun, rxLoop_succ_of_exits (by rw [hstep]; rfl), hstep]

/-- R176: a body between two sentinels is emitted, and the trailing sentinel is kept. -/
theorem rxStep_of_body {body : List Byte} (hH : c.H ≤ c.P) (hbody : body.length = c.P) (rest : List Byte) :
    rxStep pol c (c.S :: (body ++ c.S :: rest)) = (emitBody c body, c.S :: rest) := by
  have htrail : (c.S :: (body ++ c.S :: rest))[c.P + 1]? = some c.S := by simp [← hbody]
  have hpacket : packetAt c (c.S :: (body ++ c.S :: rest)) 0 = splitBody c body :=
    packetAt_of_body c [] body (c.S :: rest) hbody hH
  rw [rxStep_of_trail pol rfl htrail, hpacket, List.drop_succ_cons, List.drop_left' hbody, emitBody]

/-- R176: a run on a framed body emits it and goes on from its trailing sentinel. -/
theorem rxRun_of_body {body : List Byte} (hH : c.H ≤ c.P) (hbody : body.length = c.P) (rest : List Byte) :
    rxRun pol c (c.S :: (body ++ c.S :: rest)) =
      (emitBody c body :: (rxRun pol c (c.S :: rest)).1, (rxRun pol c (c.S :: rest)).2) :=
  rxRun_of_goes_on (rxStep_of_body hH hbody rest) rfl

/-- R179, R187: from the start of a session, every chunking emits the packets of the run over the stream in
one piece. -/
theorem emits_of_rxRun {s : State} {chunks : List (List Byte)} (hready : RxReady s chunks)
    (pol : NoSentPolicy) : Emits s chunks (packetsOf (rxRun pol s.cfg chunks.flatten).1) := by
  obtain ⟨offsets, n, hrun, hsettled⟩ :=
    rxRun_scansRun pol s.cfg (Nat.zero_le chunks.flatten.length)
  have hpackets : packetsOf (rxRun pol s.cfg chunks.flatten).1 =
      offsets.map (packetAt s.cfg chunks.flatten) := hrun.packets
  rw [hpackets]
  exact emits_of_decides hready ⟨hrun.scans, hsettled⟩

/-! ## The retained trailer before the second frame -/

/-- R177, R258: the trailing position of the retained trailer holds the last body byte of the frame after it;
when that is not the sentinel, the trailer alone is dropped. -/
theorem rxStep_trailer_before_frame {body : List Byte} (hP : 1 ≤ c.P) (hbody : body.length = c.P)
    (hlast : body.getLast? ≠ some c.S) :
    rxStep pol c (c.S :: c.S :: (body ++ [c.S])) = (.skip1, c.S :: (body ++ [c.S])) := by
  have htrail : (c.S :: c.S :: (body ++ [c.S]))[c.P + 1]? = body.getLast? := by
    obtain ⟨p, hp⟩ := Nat.exists_eq_add_of_le' hP
    rw [List.getElem?_cons_succ, hp, List.getElem?_cons_succ, List.getElem?_append_left (by omega),
      List.getLast?_eq_getElem?, hbody, hp, Nat.add_sub_cancel]
  exact rxStep_of_no_trail pol (by simp [hbody]) rfl (htrail ▸ hlast)

/-- R258: when the second frame's last body byte is the sentinel, the retained trailer and that byte frame a
body that begins with the second frame's leader. -/
theorem trailer_before_frame_eq_framed {body : List Byte} (hbody : body.length = c.P)
    (hlast : body.getLast? = some c.S) :
    c.S :: c.S :: (body ++ [c.S]) =
        c.S :: ((c.S :: body.take (c.P - 1)) ++ c.S :: [c.S]) ∧
      (c.S :: body.take (c.P - 1)).length = c.P := by
  obtain ⟨init, rfl⟩ := List.getLast?_eq_some_iff.mp hlast
  rw [List.length_append, List.length_singleton] at hbody
  rw [← hbody, Nat.add_sub_cancel, List.take_left]
  exact ⟨by simp, List.length_cons⟩

/-- Settles O57: the run emits frame 1 and goes on from its trailer, which is dropped alone or frames a false
packet; every chunking emits the packets of that run. -/
theorem unsharedFramesCostOneFalseMatch : Obligations.UnsharedFramesCostOneFalseMatch := by
  intro s chunks b1 b2 hready hb1 hb2 hstream
  have hemits := emits_of_rxRun hready Config.noSentPolicy
  obtain ⟨_, _, ⟨hP, _, hsum⟩, _⟩ := hready
  have hH : s.cfg.H ≤ s.cfg.P := by omega
  have hst : chunks.flatten = s.cfg.S :: (b1 ++ s.cfg.S :: s.cfg.S :: (b2 ++ [s.cfg.S])) := by
    rw [hstream]
    simp
  have hdrop : chunks.flatten.drop (s.cfg.P + 1) = s.cfg.S :: s.cfg.S :: (b2 ++ [s.cfg.S]) := by
    rw [hst, List.drop_succ_cons, List.drop_left' hb1]
  have hfirst := rxRun_of_body (pol := Config.noSentPolicy) hH hb1 (s.cfg.S :: (b2 ++ [s.cfg.S]))
  rw [← hst] at hfirst
  refine ⟨fun hlast => ?_, fun hlast => ?_⟩
  · have hskip := rxStep_trailer_before_frame (pol := Config.noSentPolicy) hP hb2 hlast
    have hrun : rxRun Config.noSentPolicy s.cfg chunks.flatten =
        ([emitBody s.cfg b1, .skip1, emitBody s.cfg b2, .suspend], [s.cfg.S]) := by
      rw [hfirst, rxRun_of_goes_on hskip rfl, rxRun_of_body hH hb2, rxRun_of_short (by simp)]
    refine ⟨?_, hrun, by simpa [hrun] using hemits⟩
    rw [hdrop, hskip, List.drop_add_one_eq_tail_drop, hdrop]
    rfl
  · obtain ⟨hframed, hbody⟩ := trailer_before_frame_eq_framed hb2 hlast
    have hfalse := rxStep_of_body (pol := Config.noSentPolicy) hH hbody [s.cfg.S]
    have hrun : rxRun Config.noSentPolicy s.cfg chunks.flatten =
        ([emitBody s.cfg b1, emitBody s.cfg (s.cfg.S :: b2.take (s.cfg.P - 1)), .suspend],
          [s.cfg.S, s.cfg.S]) := by
      rw [hfirst, hframed, rxRun_of_body hH hbody, rxRun_of_short (by simp; omega)]
    refine ⟨?_, hrun, by simpa [hrun] using hemits⟩
    rw [hdrop, Nat.two_mul, ← List.drop_drop, hdrop, hframed, hfalse, List.drop_succ_cons,
      List.drop_left' hbody]

end Sys2Proof.Machine
end

section
/-! The decoder read forwards (30_encoding.md R84, R97): a descriptor whose length fields fit its length is cut
into its operands, and the descriptors that the encoder writes are cut into the operands they were made of. -/

namespace Sys2Proof

/-! ### Counted sequences -/

/-- R85: a length field further on in a descriptor is the first field of what stands there. -/
theorem lengthFieldAt_drop (d : List Byte) (k : Nat) : lengthFieldAt (d.drop k) 0 = lengthFieldAt d k := by
  simp only [lengthFieldAt, List.getElem?_drop, Nat.add_zero, Nat.zero_add]

/-- R97: the offsets of the length rule count the opcode byte. -/
theorem lengthFieldAt_cons_succ (opc : Byte) (d : List Byte) (k : Nat) :
    lengthFieldAt (opc :: d) (k + 1) = lengthFieldAt d k := by
  simp only [lengthFieldAt, List.getElem?_cons_succ]

/-- R84: a length field that leaves enough bytes behind it reads as a counted sequence. -/
theorem takeCounted_of_lengthField {d : List Byte} {n : Nat} (hfield : lengthFieldAt d 0 = some n)
    (hlen : 2 + n ≤ d.length) : takeCounted d = some ((d.drop 2).take n, d.drop (2 + n)) := by
  match d with
  | [] => cases hfield
  | [_] => cases hfield
  | lo :: hi :: rest =>
    obtain rfl : (readLe16 lo hi).toNat = n := Option.some_inj.mp hfield
    simp only [List.length_cons] at hlen
    rw [takeCounted, if_pos (by omega), ← List.drop_drop]
    rfl

/-- R84, formats F-CHUNK and F-BODY: the length field that the descriptor's end agrees with. -/
theorem decodeOneSequence_of_lengthField {d : List Byte} {n : Nat} (hfield : lengthFieldAt d 0 = some n)
    (hlen : d.length = 2 + n) : decodeOneSequence d = some ((d.drop 2).take n) := by
  rw [decodeOneSequence, takeCounted_of_lengthField hfield hlen.ge, List.drop_eq_nil_of_le hlen.le]

/-- R84, format F-HD: two length fields that the descriptor's end agrees with. -/
theorem decodeTwoSequences_of_lengthFields {d : List Byte} {hl dl : Nat}
    (hhdr : lengthFieldAt d 0 = some hl) (hdat : lengthFieldAt d (2 + hl) = some dl)
    (hlen : d.length = 4 + hl + dl) :
    decodeTwoSequences d = some ((d.drop 2).take hl, ((d.drop (2 + hl)).drop 2).take dl) := by
  have hrest : decodeOneSequence (d.drop (2 + hl)) = some (((d.drop (2 + hl)).drop 2).take dl) :=
    decodeOneSequence_of_lengthField (by rw [lengthFieldAt_drop, hdat]) (by rw [List.length_drop]; omega)
  rw [decodeTwoSequences, takeCounted_of_lengthField hhdr (by omega)]
  exact congrArg (Option.map _) hrest

/-- R95: a counted sequence whose length fits is read back, with what follows it. -/
theorem takeCounted_counted {s : List Byte} (hfits : fitsLengthField s = true) (rest : List Byte) :
    takeCounted (counted s ++ rest) = some (s, rest) := by
  have hfield : lengthFieldAt (counted s ++ rest) 0 = some s.length :=
    lengthFieldAt_counted [] s rest (of_decide_eq_true hfits)
  rw [takeCounted_of_lengthField hfield (by simp), counted, List.append_assoc,
    List.drop_left' (le16OfNat_length _), List.take_left, ← List.drop_drop,
    List.drop_left' (le16OfNat_length _), List.drop_left]

/-- R95: a counted sequence with nothing after it is read back. -/
theorem decodeOneSequence_counted {s : List Byte} (hfits : fitsLengthField s = true) :
    decodeOneSequence (counted s) = some s := by
  have htake := takeCounted_counted hfits []
  rw [List.append_nil] at htake
  rw [decodeOneSequence, htake]

/-- R95: two counted sequences with nothing after them are read back. -/
theorem decodeTwoSequences_counted {hdr dat : List Byte}
    (hfits : (fitsLengthField hdr && fitsLengthField dat) = true) :
    decodeTwoSequences (counted hdr ++ counted dat) = some (hdr, dat) := by
  obtain ⟨hhdr, hdat⟩ := Bool.and_eq_true_iff.mp hfits
  rw [decodeTwoSequences, takeCounted_counted hhdr]
  exact congrArg (Option.map _) (decodeOneSequence_counted hdat)

/-! ### Descriptors -/

/-- R229: with an assigned opcode byte, the operands alone decide. -/
theorem decode_cons_of_assigned {opc : Byte} {k : Opcode} (hopc : Opcode.ofByte? opc = some k)
    (rest : List Byte) :
    decode (opc :: rest) = (decodeOperands k rest).elim (.error (.malformed opc)) .ok := by
  simp only [decode, hopc]
  cases decodeOperands k rest with
  | none => rfl
  | some i => rfl

/-- R83: the byte of an opcode selects it. -/
theorem ofByte?_byte (k : Opcode) : Opcode.ofByte? k.byte = some k :=
  (ofByte?_eq_some_iff k.byte k).mpr rfl

/-- R83: no two commands have the same opcode byte. -/
theorem Opcode.byte_injective {k k' : Opcode} (h : k.byte = k'.byte) : k = k' :=
  Option.some_inj.mp ((ofByte?_byte k).symm.trans (h ▸ ofByte?_byte k'))

/-- R92: a byte outside the list of the assigned ones selects no command. -/
theorem ofByte?_eq_none_of_not_mem {opc : Byte}
    (h : opc ∉ [0x01#8, 0x10#8, 0x11#8, 0x20#8, 0x21#8, 0x30#8]) : Opcode.ofByte? opc = none := by
  cases hk : Opcode.ofByte? opc with
  | none => rfl
  | some k =>
    rw [(ofByte?_eq_some_iff opc k).mp hk] at h
    exact absurd k.byte_mem_assigned h

/-- R84, R95: what the encoder writes after the opcode byte decodes to the command. -/
theorem decodeOperands_encode {i : Instr} (hwf : i.wellFormed = true) :
    decodeOperands i.opcode (encode i).tail = some i := by
  cases i with
  | cfgLoad psz hsz dsz sent idle =>
    simp [encode, le16, Instr.opcode, decodeOperands, decodeFCfg]
  | rxIngest chunk => exact congrArg (Option.map _) (decodeOneSequence_counted hwf)
  | rxReset => rfl
  | txFrameSelf hdr dat => exact congrArg (Option.map _) (decodeTwoSequences_counted hwf)
  | txFramePair hdr dat => exact congrArg (Option.map _) (decodeTwoSequences_counted hwf)
  | pktSplit body => exact congrArg (Option.map _) (decodeOneSequence_counted hwf)

/-- Settles O1: the opcode byte selects the command's format, in which its operands are read back. -/
theorem decodeOfEncodeIsTheCommand : Obligations.DecodeOfEncodeIsTheCommand := by
  intro i hwf
  have hencode : encode i = i.opcode.byte :: (encode i).tail :=
    (List.cons_head?_tail (encode_head? i)).symm
  rw [hencode, decode_cons_of_assigned (ofByte?_byte _), decodeOperands_encode hwf]
  rfl

/-- Settles O2: by the decoder read backwards. -/
theorem encodeOfDecodeIsTheDescriptor : Obligations.EncodeOfDecodeIsTheDescriptor :=
  fun _ _ => encode_of_decode

/-- R97: an assigned opcode with the length that the rule tells has operands that decode. -/
theorem decodeOperands_isSome_of_descriptorLength {opc : Byte} {rest : List Byte} {k : Opcode}
    (hopc : Opcode.ofByte? opc = some k)
    (hlen : descriptorLength (opc :: rest) = some (opc :: rest).length) :
    (decodeOperands k rest).isSome = true := by
  have hone : (lengthFieldAt (opc :: rest) 1).map (3 + ·) = some (opc :: rest).length →
      (decodeOneSequence rest).isSome = true := by
    intro h
    obtain ⟨n, hfield, hn⟩ := Option.map_eq_some_iff.mp h
    rw [lengthFieldAt_cons_succ] at hfield
    rw [List.length_cons] at hn
    rw [decodeOneSequence_of_lengthField hfield (by omega), Option.isSome_some]
  have htwo : ((lengthFieldAt (opc :: rest) 1).bind fun hl =>
      (lengthFieldAt (opc :: rest) (3 + hl)).map (5 + hl + ·)) = some (opc :: rest).length →
      (decodeTwoSequences rest).isSome = true := by
    intro h
    obtain ⟨hl, hhdr, h⟩ := Option.bind_eq_some_iff.mp h
    obtain ⟨dl, hdat, hn⟩ := Option.map_eq_some_iff.mp h
    have hoffset : 3 + hl = 2 + hl + 1 := by omega
    rw [lengthFieldAt_cons_succ] at hhdr
    rw [hoffset, lengthFieldAt_cons_succ] at hdat
    rw [List.length_cons] at hn
    rw [decodeTwoSequences_of_lengthFields hhdr hdat (by omega), Option.isSome_some]
  rw [descriptorLength, hopc] at hlen
  cases k with
  | cfgLoad =>
    match rest, hlen with
    | [_, _, _, _, _, _, _, _], _ => rfl
  | rxIngest => exact (Option.isSome_map ..).trans (hone hlen)
  | rxReset =>
    match rest, hlen with
    | [], _ => rfl
  | txFrameSelf => exact (Option.isSome_map ..).trans (htwo hlen)
  | txFramePair => exact (Option.isSome_map ..).trans (htwo hlen)
  | pktSplit => exact (Option.isSome_map ..).trans (hone hlen)

/-- R83: a descriptor decodes to a command of its own opcode. -/
theorem opcode_of_decode {opc : Byte} {rest : List Byte} {k : Opcode} {i : Instr}
    (hopc : Opcode.ofByte? opc = some k) (h : decode (opc :: rest) = .ok i) : i.opcode = k := by
  have hhead := encode_head? i
  rw [(encode_of_decode h).2, List.head?_cons, Option.some_inj, (ofByte?_eq_some_iff opc k).mp hopc] at hhead
  exact Opcode.byte_injective hhead.symm

/-- Settles O3: the operands of an assigned opcode decode just when the length is the rule's, and operands
that do not decode are malformed. -/
theorem assignedDescriptorDecodesIffLengthFits : Obligations.AssignedDescriptorDecodesIffLengthFits := by
  intro opc rest k hopc
  have hdecode := decode_cons_of_assigned hopc rest
  cases hoperands : decodeOperands k rest with
  | none =>
    rw [hoperands] at hdecode
    have hne : descriptorLength (opc :: rest) ≠ some (opc :: rest).length := fun hlen => by
      simpa [hoperands] using decodeOperands_isSome_of_descriptorLength hopc hlen
    have hrefused : ¬ ∃ i, decode (opc :: rest) = .ok i ∧ i.opcode = k := fun ⟨i, hi, _⟩ =>
      nomatch hdecode.symm.trans hi
    exact ⟨iff_of_false hrefused hne, fun _ => hdecode⟩
  | some i =>
    rw [hoperands] at hdecode
    have hlen := descriptorLength_of_decode hdecode
    exact ⟨iff_of_true ⟨i, hdecode, opcode_of_decode hopc hdecode⟩ hlen, fun hne => absurd hlen hne⟩

/-- Settles O4: the six bytes by the opcode map, the others because an assigned byte is one of the six. -/
theorem sixOpcodesAreAssigned : Obligations.SixOpcodesAreAssigned := by
  refine ⟨ofByte?_byte, fun opc hopc rest => ?_, by decide +kernel⟩
  rw [decode, ofByte?_eq_none_of_not_mem hopc]

/-- Settles O6: each descriptor is what the encoder writes for its command. -/
theorem writtenOutDescriptorsDecode : Obligations.WrittenOutDescriptorsDecode :=
  ⟨decodeOfEncodeIsTheCommand (.cfgLoad 4 1 3 0x00 0xFF) rfl,
    decodeOfEncodeIsTheCommand (.rxIngest [0xAB, 0xCD]) rfl,
    decodeOfEncodeIsTheCommand .rxReset rfl,
    decodeOfEncodeIsTheCommand (.txFrameSelf [0xAA] [0x01, 0x02]) rfl,
    decodeOfEncodeIsTheCommand (.txFramePair [0xAA, 0xBB] [0x01]) rfl,
    decodeOfEncodeIsTheCommand (.pktSplit [0x11, 0x22, 0x33]) rfl⟩

end Sys2Proof
end

section
/-! What each command does when its interface serves it (30_encoding.md R83): one equation for each way its
meaning can go, with the next state written out. -/

namespace Sys2Proof.Machine

/-- Settles O10: the yes and no columns of R83, row by row. -/
theorem eachCommandIsServedOnItsInterfaces : Obligations.EachCommandIsServedOnItsInterfaces := by
  intro i a
  cases i with
  | cfgLoad => exact beq_iff_eq
  | rxIngest => exact beq_iff_eq
  | rxReset => exact beq_iff_eq
  | txFrameSelf => exact beq_iff_eq
  | txFramePair => exact beq_iff_eq
  | pktSplit => cases a <;> simp [Instr.opcode, Opcode.servedOn]

/-! ### CFG.LOAD and PKT.SPLIT -/

/-- R112: the check of CFG.LOAD, over the natural numbers. -/
theorem formatAccepted_iff (p : Params) (psz hsz dsz : Half) :
    formatAccepted p psz hsz dsz = true ↔
      1 ≤ psz.toNat ∧ psz.toNat ≤ p.pMax ∧ hsz.toNat + dsz.toNat = psz.toNat := by
  simp [formatAccepted, and_assoc]

/-- Settles O22: the interface serves the command and its format passes the check. -/
theorem cfgLoadInstallsAnAcceptedFormat : Obligations.CfgLoadInstallsAnAcceptedFormat := by
  intro psz hsz dsz sent idle s hctrl hmin hmax hsum
  have hserved : Opcode.cfgLoad.servedOn s.active = true := by rw [hctrl]; rfl
  have haccepted := (formatAccepted_iff s.params psz hsz dsz).mpr ⟨hmin, hmax, hsum⟩
  rw [exec, execCfgLoad, if_pos hserved, if_pos haccepted, ← hctrl]
  rfl

/-- Settles O23: the format fails the check, and what is raised is one response. -/
theorem cfgLoadRefusesABadFormat : Obligations.CfgLoadRefusesABadFormat := by
  intro psz hsz dsz sent idle s hctrl hbad
  have hserved : Opcode.cfgLoad.servedOn s.active = true := by rw [hctrl]; rfl
  have hrefused : ¬ formatAccepted s.params psz hsz dsz = true := fun h => by
    obtain ⟨hmin, hmax, hsum⟩ := (formatAccepted_iff s.params psz hsz dsz).mp h
    omega
  rw [exec, execCfgLoad, if_pos hserved, if_neg hrefused, ← hctrl]
  rfl

/-- R83: PKT.SPLIT is served on every interface but `CMD_CTRL`. -/
theorem pktSplit_servedOn {a : Iface} (h : a ≠ .ctrl) : Opcode.pktSplit.servedOn a = true :=
  (eachCommandIsServedOnItsInterfaces (.pktSplit []) a).mpr h

/-- R113: the header of a body is its first `H` bytes. -/
theorem bodyHeader_eq_take (c : PacketFormat) (body : List Byte) : bodyHeader c body = body.take c.H := rfl

/-- R113: the data of a body of `P` bytes is what follows its header. -/
theorem bodyData_eq_drop {c : PacketFormat} {body : List Byte} (hbody : body.length = c.P) :
    bodyData c body = body.drop c.H := by
  rw [bodyData, slice, ← hbody, ← List.length_drop, List.take_length]

/-- Settles O24: the body has the format's size, and splits at `H`. -/
theorem pktSplitAnswersHeaderAndData : Obligations.PktSplitAnswersHeaderAndData := by
  intro body s hserved hbody
  rw [exec, execPktSplit, if_pos (pktSplit_servedOn hserved), if_pos hbody, bodyHeader_eq_take,
    bodyData_eq_drop hbody]
  rfl

/-- Settles O25: the body has not the format's size, and what is raised is one response. -/
theorem pktSplitRefusesAnotherLength : Obligations.PktSplitRefusesAnotherLength := by
  intro body s hserved hbody
  rw [exec, execPktSplit, if_pos (pktSplit_servedOn hserved), if_neg hbody]
  rfl

/-! ### The framing commands -/

/-- R12: writes issued one after another, whatever their answers (R143). -/
def State.writeAll (s : State) (buffers : List (List Byte)) : State := buffers.foldl State.write s

/-- The host's answers to the next `n` writes (R87). -/
def State.answersTo (s : State) (n : Nat) : List Bool := (List.range n).map s.answerAt

/-- The first answer, and the answers to the writes after it. -/
theorem State.answersTo_succ (s : State) (buffer : List Byte) (n : Nat) :
    s.answersTo (n + 1) = s.nextAnswer :: (s.write buffer).answersTo n := by
  have hlater : (s.write buffer).answerAt = fun k => s.answerAt (k + 1) :=
    funext (s.answerAt_write buffer)
  rw [State.answersTo, State.answersTo, hlater, List.range_succ_eq_map, List.map_cons, List.map_map,
    State.nextAnswer_eq_answerAt]
  rfl

/-- R87: writes take their answers in order and record them with the buffers; nothing else changes. -/
theorem State.writeAll_eq (s : State) (buffers : List (List Byte)) :
    s.writeAll buffers = { s with
      answers := s.answers.drop buffers.length
      trace := s.trace ++
        (buffers.zip (s.answersTo buffers.length)).map fun w => .txOut w.1 w.2 } := by
  induction buffers generalizing s with
  | nil => simp [State.writeAll]
  | cons buffer buffers ih =>
    have hcons : s.writeAll (buffer :: buffers) = (s.write buffer).writeAll buffers := rfl
    rw [hcons, ih, List.length_cons, s.answersTo_succ buffer, List.zip_cons_cons, List.map_cons,
      State.write_trace, State.write_answers, List.drop_tail, List.append_assoc]
    rfl

/-- R140: TX.FRAME.SELF of the right sizes. -/
theorem execTxFrameSelf_of_sizes {hdr dat : List Byte} {s : State} (htx : s.active = .tx)
    (hsizes : packetSizesMatch s.cfg hdr dat = true) :
    execTxFrameSelf hdr dat s =
      .next ((s.writeAll [frame s.cfg hdr dat]).respond [statusOk, wokSelf (s.answerAt 0)]) := by
  have hserved : Opcode.txFrameSelf.servedOn s.active = true := by rw [htx]; rfl
  rw [execTxFrameSelf, if_pos hserved, if_pos hsizes, State.nextAnswer_eq_answerAt]
  rfl

/-- R141, R143: TX.FRAME.PAIR of the right sizes. -/
theorem execTxFramePair_of_sizes {hdr dat : List Byte} {s : State} (htx : s.active = .tx)
    (hsizes : packetSizesMatch s.cfg hdr dat = true) :
    execTxFramePair hdr dat s =
      .next ((s.writeAll [[s.cfg.S], hdr ++ dat, [s.cfg.S]]).respond
        [statusOk, wokPair (s.answerAt 0) (s.answerAt 1) (s.answerAt 2)]) := by
  have hserved : Opcode.txFramePair.servedOn s.active = true := by rw [htx]; rfl
  rw [execTxFramePair, if_pos hserved, if_pos hsizes]
  simp only [State.nextAnswer_eq_answerAt, State.answerAt_write]
  rfl

/-- R88: WOK of TX.FRAME.SELF as a number. -/
theorem wokSelf_eq_ite (ok1 : Bool) : wokSelf ok1 = if ok1 then 1 else 0 := by
  cases ok1 <;> rfl

/-- R88: WOK of TX.FRAME.PAIR as a sum of its bits. -/
theorem wokPair_eq_add (ok1 ok2 ok3 : Bool) :
    wokPair ok1 ok2 ok3 = (if ok1 then 1 else 0) + (if ok2 then 2 else 0) + (if ok3 then 4 else 0) := by
  revert ok1 ok2 ok3
  decide

/-- Settles O26: the one write and the response, WOK as a number. -/
theorem txFrameSelfWritesTheFrameOnce : Obligations.TxFrameSelfWritesTheFrameOnce := by
  intro hdr dat s htx hhdr hdat
  have hsizes := (packetSizesMatch_iff s.cfg hdr dat).mpr ⟨hhdr, hdat⟩
  rw [exec, execTxFrameSelf_of_sizes htx hsizes, wokSelf_eq_ite, State.writeAll_eq, State.respond,
    State.deliver, List.append_assoc, htx]
  rfl

/-- Settles O27: the three writes and the response, WOK as a number. -/
theorem txFramePairWritesThreeTimes : Obligations.TxFramePairWritesThreeTimes := by
  intro hdr dat s htx hhdr hdat
  have hsizes := (packetSizesMatch_iff s.cfg hdr dat).mpr ⟨hhdr, hdat⟩
  rw [exec, execTxFramePair_of_sizes htx hsizes, wokPair_eq_add, State.writeAll_eq, State.respond,
    State.deliver, List.append_assoc, htx]
  rfl

/-! ### RX.INGEST and RX.RESET -/

/-- Settles O41: the chunk passes both checks of R171. -/
theorem rxIngestDeliversWhatTheLoopEmits : Obligations.RxIngestDeliversWhatTheLoopEmits := by
  intro chunk s hrx hne hmax
  have hserved : Opcode.rxIngest.servedOn s.active = true := by rw [hrx]; rfl
  rw [exec, execRxIngest, if_pos hserved, if_neg (Nat.not_lt.mpr hmax),
    if_neg (mt List.length_eq_zero_iff.mp hne), ← hrx]
  rfl

/-- Settles O42: an empty chunk is never too long, and is answered before it reaches the loop. -/
theorem emptyChunkIsANoDataRound : Obligations.EmptyChunkIsANoDataRound := by
  intro s hrx
  have hserved : Opcode.rxIngest.servedOn s.active = true := by rw [hrx]; rfl
  rw [exec, execRxIngest, if_pos hserved, List.length_nil, if_neg (Nat.not_lt_zero _), if_pos rfl, ← hrx]
  rfl

/-- Settles O43: the chunk fails the first check of R171, and what is raised is one response. -/
theorem overlongChunkIsRefusedWhole : Obligations.OverlongChunkIsRefusedWhole := by
  intro chunk s hrx hover
  have hserved : Opcode.rxIngest.servedOn s.active = true := by rw [hrx]; rfl
  rw [exec, execRxIngest, if_pos hserved, if_pos hover, ← hrx]
  rfl

/-- Settles O44: RX.RESET has no check but that of the interface. -/
theorem rxResetEmptiesTheResidualBuffer : Obligations.RxResetEmptiesTheResidualBuffer := by
  intro s hrx
  have hserved : Opcode.rxReset.servedOn s.active = true := by rw [hrx]; rfl
  rw [exec, execRxReset, if_pos hserved, ← hrx]
  rfl

end Sys2Proof.Machine
end

section
/-! The loop of RX.INGEST as a recursion on the buffer (42_deframer.md R170): an induction over its
micro-steps, how much it leaves in the buffer (10_state.md R25), and how many packets it emits. -/

namespace Sys2Proof.Machine

variable {pol : NoSentPolicy} {c : PacketFormat}

/-- Settles O34: the length condition is the micro-step's first. -/
theorem shortBufferSuspends : Obligations.ShortBufferSuspends :=
  fun _ _ _ hshort => if_pos hshort

/-- R170: a micro-step that exits the loop is the whole run. -/
theorem rxRun_of_exits {buf : List Byte} (hexit : (rxStep pol c buf).1.exitsLoop = true) :
    rxRun pol c buf = ([(rxStep pol c buf).1], (rxStep pol c buf).2) :=
  rxLoop_succ_of_exits hexit _

/-- Settles O39: a run that goes on has micro-steps enough for the shorter buffer. -/
theorem loopRepeatsTheMicroStep : Obligations.LoopRepeatsTheMicroStep := by
  intro pol c buf
  split
  next hexit => exact rxRun_of_exits hexit
  next hgoes => exact rxRun_of_goes_on rfl (Bool.eq_false_iff.mpr hgoes)

/-- R170, R180: what holds of a run of one micro-step that exits, and of a run that goes on when it holds of
the rest, holds of every run. -/
theorem rxRun_induction {motive : List Byte → List RxAction × List Byte → Prop}
    (exits : ∀ buf a rest, rxStep pol c buf = (a, rest) → a.exitsLoop = true → motive buf ([a], rest))
    (goes_on : ∀ buf a rest, rxStep pol c buf = (a, rest) → a.exitsLoop = false →
      motive rest (rxRun pol c rest) →
      motive buf (a :: (rxRun pol c rest).1, (rxRun pol c rest).2)) (buf : List Byte) :
    motive buf (rxRun pol c buf) := by
  induction hlen : buf.length using Nat.strong_induction_on generalizing buf with
  | h n ih =>
    cases hexit : (rxStep pol c buf).1.exitsLoop with
    | true =>
      rw [rxRun_of_exits hexit]
      exact exits buf _ _ rfl hexit
    | false =>
      have hshort := rxStep_shortens (RxAction.ne_suspend_of_goes_on hexit)
      rw [rxRun_of_goes_on rfl hexit]
      exact goes_on buf _ _ rfl hexit (ih _ (hlen ▸ hshort) _ rfl)

/-- R25: SUSPEND leaves less than a window, and DROP_ALL at most `P` bytes. -/
theorem rxStep_exit_length_le {buf : List Byte} (hexit : (rxStep pol c buf).1.exitsLoop = true) :
    (rxStep pol c buf).2.length ≤ c.P + 1 := by
  obtain ⟨hshort, hstep⟩ | ⟨_, _, hstep⟩ | ⟨_, k, _, _, hstep⟩ | ⟨_, _, _, hstep⟩ |
    ⟨_, _, _, hstep⟩ := rxStep_cases pol c buf
  · rw [hstep]
    exact Nat.le_of_lt_succ hshort
  · rw [hstep]
    exact (noSentRest_length_le pol c buf).trans (Nat.le_succ _)
  all_goals
    rw [hstep] at hexit
    cases hexit

/-- R25: what a run leaves in the buffer is shorter than a window. -/
theorem rxRun_rest_length_le (buf : List Byte) : (rxRun pol c buf).2.length ≤ c.P + 1 := by
  refine rxRun_induction (motive := fun _ run => run.2.length ≤ c.P + 1) ?_ ?_ buf
  · intro buf a rest hstep hexit
    have hle := rxStep_exit_length_le (pol := pol) (c := c) (buf := buf) (by rw [hstep]; exact hexit)
    rwa [hstep] at hle
  · intro _ _ _ _ _ hrest
    exact hrest

/-- R176: every accepted offset uses up `P + 1` bytes of its own. -/
theorem Scans.offsets_length_le {st : List Byte} {m n : Nat} {offsets : List Nat}
    (h : Scans c st m offsets n) : m + offsets.length * (c.P + 1) ≤ n := by
  induction h with
  | done m => simp
  | pass _ _ _ ih => omega
  | reject _ _ _ _ ih => omega
  | accept _ _ _ ih =>
    rw [List.length_cons, Nat.succ_mul]
    omega

/-- R86, R176: the packets of a run have the format's sizes. -/
theorem rxRun_packet_sizes (pol : NoSentPolicy) (hH : c.H ≤ c.P) (buf : List Byte) :
    ∀ p ∈ packetsOf (rxRun pol c buf).1, p.1.length = c.H ∧ p.2.length = c.P - c.H := by
  obtain ⟨offsets, n, hrun, _⟩ := rxRun_scansRun pol c (Nat.zero_le buf.length)
  have hpackets : packetsOf (rxRun pol c buf).1 = offsets.map (packetAt c buf) := hrun.packets
  rw [hpackets, List.forall_mem_map]
  intro q hq
  obtain ⟨_, _, _, htrail⟩ := hrun.scans.mem_offsets hq
  have hin := (List.getElem?_eq_some_iff.mp htrail).1
  simp only [packetAt, slice, List.length_take, List.length_drop]
  omega

/-- R180: the packets of a run take up no more bytes than it was given. -/
theorem rxRun_packets_length_le (pol : NoSentPolicy) (c : PacketFormat) (buf : List Byte) :
    (packetsOf (rxRun pol c buf).1).length * (c.P + 1) ≤ buf.length := by
  obtain ⟨offsets, n, hrun, _⟩ := rxRun_scansRun pol c (Nat.zero_le buf.length)
  have hpackets : packetsOf (rxRun pol c buf).1 = offsets.map (packetAt c buf) := hrun.packets
  have hcount := hrun.scans.offsets_length_le
  have hstop := hrun.scans.stop_le_length (Nat.zero_le _)
  rw [hpackets, List.length_map]
  omega

/-- R88: a length that fits its field is answered exactly. -/
theorem le16OfNat_exact {n : Nat} (hn : n < 65536) :
    ∃ lo hi, le16OfNat n = [lo, hi] ∧ (readLe16 lo hi).toNat = n := by
  refine ⟨_, _, rfl, ?_⟩
  rw [readLe16_lowByte_highByte, BitVec.toNat_ofNat]
  exact Nat.mod_eq_of_lt hn

/-- Settles O45: the sizes are those of the run's packets, and the bytes that these take up, at least two for
each, keep their number below 65536. -/
theorem ingestedPacketsHaveTheFormatsSizes : Obligations.IngestedPacketsHaveTheFormatsSizes := by
  intro chunk s ⟨⟨⟨_, hpMax⟩, _, hchunkMax⟩, ⟨hP, hPmax, hsum⟩, hrbuf⟩ hrx hchunk
  by_cases hempty : chunk = []
  · subst hempty
    exact ⟨_, [], 0x00, 0x00, emptyChunkIsANoDataRound s hrx, by simp, by simp, by decide⟩
  · have hrun := rxRun_packets_length_le .discardAll s.cfg (s.rbuf ++ chunk)
    have hsizes := rxRun_packet_sizes .discardAll (c := s.cfg) (by omega) (s.rbuf ++ chunk)
    rw [List.length_append] at hrun
    have htwo := Nat.mul_le_mul_left (packetsOf (rxRun .discardAll s.cfg (s.rbuf ++ chunk)).1).length
      (Nat.add_le_add_right hP 1)
    obtain ⟨lo, hi, hcount, hvalue⟩ :=
      le16OfNat_exact (n := (packetsOf (rxRun .discardAll s.cfg (s.rbuf ++ chunk)).1).length) (by omega)
    refine ⟨_, _, lo, hi, rxIngestDeliversWhatTheLoopEmits chunk s hrx hempty hchunk, ?_, ?_, hvalue⟩
    · rw [hcount]
    · intro p hp
      obtain ⟨hhdr, hdat⟩ := hsizes p hp
      exact ⟨hhdr, by omega⟩

end Sys2Proof.Machine
end

section
/-! The Deframer only compares bytes with the sentinel (00_scope.md R8): a map of the bytes that keeps the
sentinel apart from the others commutes with the detector, the micro-step and the loop. -/

namespace Sys2Proof.Machine

/-- The action of a micro-step, its packet's bytes mapped. -/
def RxAction.mapBytes (f : Byte → Byte) : RxAction → RxAction
  | .emit h d => .emit (h.map f) (d.map f)
  | a => a

/-- A packet with its bytes mapped. -/
def mapPacket (f : Byte → Byte) (p : List Byte × List Byte) : List Byte × List Byte :=
  (p.1.map f, p.2.map f)

variable (pol : NoSentPolicy) (c : PacketFormat) (f : Byte → Byte)

/-- Whether an action exits the loop does not depend on bytes. -/
theorem RxAction.exitsLoop_mapBytes (a : RxAction) : (a.mapBytes f).exitsLoop = a.exitsLoop := by
  cases a <;> rfl

/-- The packets of mapped actions are the mapped packets. -/
theorem packetsOf_mapBytes (actions : List RxAction) :
    packetsOf (actions.map (RxAction.mapBytes f)) = (packetsOf actions).map (mapPacket f) := by
  have hone (a : RxAction) : (a.mapBytes f).packet? = a.packet?.map (mapPacket f) := by
    cases a <;> rfl
  simp only [packetsOf, List.filterMap_map, List.map_filterMap, Function.comp_def, hone]

/-- Slices are cut by offsets alone. -/
theorem slice_map (buf : List Byte) (a b : Nat) : slice (buf.map f) a b = (slice buf a b).map f := by
  simp only [slice, List.map_take, List.map_drop]

/-- What step 2.b leaves is cut by offsets alone. -/
theorem noSentRest_map (buf : List Byte) :
    noSentRest pol c (buf.map f) = (noSentRest pol c buf).map f := by
  cases pol with
  | discardAll => rfl
  | retainTail => simp only [noSentRest, List.length_map, List.map_drop]

section
variable {f} (hf : ∀ b, f b = c.S ↔ b = c.S)
include hf

/-- R173: the sentinel is found at the same offset. -/
theorem detectFirst_map (buf : List Byte) : detectFirst c (buf.map f) = detectFirst c buf := by
  have hsame : ((· == c.S) ∘ f) = (· == c.S) := funext fun b => Bool.eq_iff_iff.mpr <| by
    simpa using hf b
  rw [detectFirst, detectFirst, firstIndex, firstIndex, List.findIdx?_map, hsame]

/-- R173: the trailing position holds the sentinel or not, as before. -/
theorem detectTrail_map (buf : List Byte) : detectTrail c (buf.map f) = detectTrail c buf := by
  refine Bool.eq_iff_iff.mpr ?_
  rw [detectTrail_eq_true_iff, detectTrail_eq_true_iff, List.getElem?_map, Option.map_eq_some_iff]
  constructor
  · rintro ⟨b, hb, hS⟩
    rw [hb, (hf b).mp hS]
  · intro hS
    exact ⟨c.S, hS, (hf c.S).mpr rfl⟩

/-- R191: the micro-step commutes with the map, case by case. -/
theorem rxStep_map (buf : List Byte) :
    rxStep pol c (buf.map f) =
      ((rxStep pol c buf).1.mapBytes f, (rxStep pol c buf).2.map f) := by
  have hlength : (buf.map f).length = buf.length := List.length_map _
  have hfirst' := detectFirst_map c hf buf
  have htrail' := detectTrail_map c hf buf
  obtain ⟨hshort, hstep⟩ | ⟨hlen, hfirst, hstep⟩ | ⟨hlen, k, hfirst, hk, hstep⟩ |
    ⟨hlen, hfirst, htrail, hstep⟩ | ⟨hlen, hfirst, htrail, hstep⟩ := rxStep_cases pol c buf
  · rw [hstep, shortBufferSuspends pol c (buf.map f) (hlength ▸ hshort)]
    rfl
  · rw [hstep, rxStep_of_first_none pol (hlength ▸ hlen) (hfirst'.trans hfirst), noSentRest_map]
    rfl
  · rw [hstep, rxStep_of_first_pos pol (hlength ▸ hlen) (hfirst'.trans hfirst) hk, ← List.map_drop]
    rfl
  · have hlead := (detectFirst_eq_zero_iff c _).mp (hfirst'.trans hfirst)
    have hmatch := (detectTrail_eq_true_iff c _).mp (htrail'.trans htrail)
    rw [hstep, rxStep_of_trail pol hlead hmatch, ← List.map_drop]
    simp only [packetAt, slice_map, RxAction.mapBytes, Nat.zero_add]
  · have hlead := (detectFirst_eq_zero_iff c _).mp (hfirst'.trans hfirst)
    have hno : (buf.map f)[c.P + 1]? ≠ some c.S := fun h => by
      rw [← detectTrail_eq_true_iff, htrail', htrail] at h
      cases h
    rw [hstep, rxStep_of_no_trail pol (hlength ▸ hlen) hlead hno, ← List.map_drop]
    rfl

/-- R170: the run commutes with the map. -/
theorem rxRun_map (buf : List Byte) :
    rxRun pol c (buf.map f) =
      ((rxRun pol c buf).1.map (RxAction.mapBytes f), (rxRun pol c buf).2.map f) := by
  refine rxRun_induction (motive := fun buf run => rxRun pol c (buf.map f) =
    (run.1.map (RxAction.mapBytes f), run.2.map f)) ?_ ?_ buf
  · intro buf a rest hstep hexit
    have hmap := rxStep_map pol c hf buf
    rw [hstep] at hmap
    rw [rxRun_of_exits (by rw [hmap, RxAction.exitsLoop_mapBytes, hexit]), hmap]
    rfl
  · intro buf a rest hstep hgoes hrest
    have hmap := rxStep_map pol c hf buf
    rw [hstep] at hmap
    rw [rxRun_of_goes_on hmap (by rw [RxAction.exitsLoop_mapBytes, hgoes]), hrest]
    rfl

end

/-- Settles O47: the run on the mapped buffer is the mapped run. -/
theorem deframerOnlyComparesWithTheSentinel : Obligations.DeframerOnlyComparesWithTheSentinel := by
  intro pol c f buf hf
  rw [rxRun_map pol c hf, packetsOf_mapBytes]
  exact ⟨rfl, rfl⟩

end Sys2Proof.Machine
end

section
/-! A command as its effect: what it puts into the registers, what it gives to the host and what it answers,
as a function of the command, the interface, the parameters and the registers alone. `exec` and `step` are
running the effect, so what a command reads and what it leaves unchanged is said by `effect`. -/

namespace Sys2Proof.Machine

/-- What a command does. Of the host's answers only its response can tell, from those to its own writes. -/
structure Effect where
  /-- CR0 to CR4 after the command. -/
  cfg : PacketFormat
  /-- The residual buffer after the command. -/
  rbuf : List Byte
  /-- Its RX_OUT packets. -/
  packets : List (List Byte × List Byte)
  /-- Its TX_OUT write buffers. -/
  writes : List (List Byte)
  /-- The first byte of its response. -/
  status : Byte
  /-- The other bytes of its response, given the answers to its writes. -/
  info : List Bool → List Byte

/-- The effect of a command that only sets the registers and answers. -/
def Effect.reply (c : PacketFormat) (rbuf : List Byte) (status : Byte) (info : List Byte) : Effect :=
  { cfg := c, rbuf := rbuf, packets := [], writes := [], status := status, info := fun _ => info }

/-- The effect of a command that raises an error: the registers stay as they are (R222). -/
def Effect.refuse (c : PacketFormat) (rbuf : List Byte) (e : CommandError) : Effect :=
  .reply c rbuf e.code e.info

/-- What the host is given: the packets and the writes, and then the response (R81). -/
def Effect.outputs (e : Effect) (s : State) : List Event :=
  e.packets.map (fun p => Event.rxOut p.1 p.2) ++
    (e.writes.zip (s.answersTo e.writes.length)).map fun w => Event.txOut w.1 w.2

/-- The effect, carried out in a state. -/
def Effect.run (e : Effect) (s : State) : State :=
  { s with
    cfg := e.cfg
    rbuf := e.rbuf
    answers := s.answers.drop e.writes.length
    trace := s.trace ++ e.outputs s ++
      [.response s.active (e.status :: e.info (s.answersTo e.writes.length))] }

/-- The effect of a command that its interface serves. -/
def servedEffect (i : Instr) (p : Params) (c : PacketFormat) (rbuf : List Byte) : Effect :=
  match i with
  | .cfgLoad psz hsz dsz sent idle =>
    if formatAccepted p psz hsz dsz then .reply ⟨psz, hsz, dsz, sent, idle⟩ [] statusOk []
    else .refuse c rbuf .invalidConfig
  | .rxIngest chunk =>
    if p.chunkMax < chunk.length then .refuse c rbuf (.chunkOverflow chunk.length)
    else if chunk.length = 0 then .reply c rbuf statusOk (le16OfNat 0)
    else
      { cfg := c
        rbuf := (rxRun Config.noSentPolicy c (rbuf ++ chunk)).2
        packets := packetsOf (rxRun Config.noSentPolicy c (rbuf ++ chunk)).1
        writes := []
        status := statusOk
        info := fun _ => le16OfNat (packetsOf (rxRun Config.noSentPolicy c (rbuf ++ chunk)).1).length }
  | .rxReset => .reply c [] statusOk []
  | .txFrameSelf hdr dat =>
    if packetSizesMatch c hdr dat then
      { cfg := c, rbuf := rbuf, packets := [], writes := [frame c hdr dat], status := statusOk
        info := fun answers => [wokSelf (answers.getD 0 false)] }
    else .refuse c rbuf (.invalidFrameSize hdr.length dat.length)
  | .txFramePair hdr dat =>
    if packetSizesMatch c hdr dat then
      { cfg := c, rbuf := rbuf, packets := [], writes := [[c.S], hdr ++ dat, [c.S]], status := statusOk
        info := fun answers =>
          [wokPair (answers.getD 0 false) (answers.getD 1 false) (answers.getD 2 false)] }
    else .refuse c rbuf (.invalidFrameSize hdr.length dat.length)
  | .pktSplit body =>
    if body.length = c.P then
      .reply c rbuf statusOk
        (le16 c.headerSize ++ bodyHeader c body ++ le16 c.dataSize ++ bodyData c body)
    else .refuse c rbuf (.invalidBodySize body.length)

/-- The effect of a command that came by interface `a`. -/
def effect (i : Instr) (a : Iface) (p : Params) (c : PacketFormat) (rbuf : List Byte) : Effect :=
  if i.opcode.servedOn a then servedEffect i p c rbuf
  else .refuse c rbuf (.illegalCommand (some i.opcode.byte))

/-- The effect of a descriptor that came by interface `a`. -/
def descriptorEffect (d : List Byte) (a : Iface) (p : Params) (c : PacketFormat) (rbuf : List Byte) :
    Effect :=
  match decode d with
  | .error e => .refuse c rbuf (.illegalCommand e.opcodeInfo)
  | .ok i => effect i a p c rbuf

/-! ### What running an effect changes -/

section
variable (e : Effect) (s : State)

@[simp] theorem Effect.run_cfg : (e.run s).cfg = e.cfg := rfl
@[simp] theorem Effect.run_rbuf : (e.run s).rbuf = e.rbuf := rfl
@[simp] theorem Effect.run_params : (e.run s).params = s.params := rfl
@[simp] theorem Effect.run_active : (e.run s).active = s.active := rfl
@[simp] theorem Effect.run_schedule : (e.run s).schedule = s.schedule := rfl
@[simp] theorem Effect.run_answers : (e.run s).answers = s.answers.drop e.writes.length := rfl
@[simp] theorem Effect.run_trace : (e.run s).trace = s.trace ++ e.outputs s ++
    [.response s.active (e.status :: e.info (s.answersTo e.writes.length))] := rfl
@[simp] theorem Effect.run_pending (a : Iface) : (e.run s).pending a = s.pending a := by
  cases a <;> rfl

/-- As many answers as writes. -/
@[simp] theorem State.answersTo_length (n : Nat) : (s.answersTo n).length = n := by
  simp [State.answersTo]

/-- R86, R87: no packet and no write is a response. -/
theorem Effect.isResponse_of_mem_outputs {event : Event} (h : event ∈ e.outputs s) :
    event.isResponse = false := by
  obtain hpacket | hwrite := List.mem_append.mp h
  · obtain ⟨p, _, rfl⟩ := List.mem_map.mp hpacket
    rfl
  · obtain ⟨w, _, rfl⟩ := List.mem_map.mp hwrite
    rfl

/-- What a run shows of packets and writes, taken from one list of transactions by a selection `g`. -/
theorem Effect.filterMap_outputs {α : Type} (g : Event → Option α) :
    (e.outputs s).filterMap g =
      e.packets.filterMap (fun p => g (.rxOut p.1 p.2)) ++
        (e.writes.zip (s.answersTo e.writes.length)).filterMap (fun w => g (.txOut w.1 w.2)) := by
  rw [Effect.outputs, List.filterMap_append, List.filterMap_map, List.filterMap_map]
  rfl

@[simp] theorem Effect.run_rxOut : (e.run s).rxOut = s.rxOut ++ e.packets := by
  simp [State.rxOut, Effect.filterMap_outputs, Event.packet?]

@[simp] theorem Effect.run_txOut :
    (e.run s).txOut = s.txOut ++ e.writes.zip (s.answersTo e.writes.length) := by
  simp [State.txOut, Effect.filterMap_outputs, Event.write?]

@[simp] theorem Effect.run_txBuffers : (e.run s).txBuffers = s.txBuffers ++ e.writes := by
  have hbuffers : (e.writes.zip (s.answersTo e.writes.length)).map Prod.fst = e.writes :=
    List.map_fst_zip (by rw [State.answersTo_length])
  simp [State.txBuffers, Effect.filterMap_outputs, Event.buffer?, hbuffers, List.filterMap_cons]

@[simp] theorem Effect.run_responses (a : Iface) :
    (e.run s).responses a = s.responses a ++
      (if s.active = a then [e.status :: e.info (s.answersTo e.writes.length)] else []) := by
  by_cases h : s.active = a <;>
    simp [State.responses, Effect.filterMap_outputs, Event.responseOn?, h]

end

/-! ### A command and a step are running an effect -/

/-- R88: an effect that only sets the registers and answers. -/
theorem Effect.run_reply (s : State) (c : PacketFormat) (rbuf : List Byte) (status : Byte)
    (info : List Byte) :
    (Effect.reply c rbuf status info).run s = ((s.setCfg c).setRbuf rbuf).respond (status :: info) := by
  rw [Effect.run, Effect.outputs, Effect.reply, List.map_nil, List.zip_nil_left, List.map_nil,
    List.append_nil, List.append_nil]
  rfl

/-- R222: an effect that refuses is raising the error. -/
theorem Effect.run_refuse (s : State) (e : CommandError) :
    (Effect.refuse s.cfg s.rbuf e).run s = s.raise e :=
  Effect.run_reply s s.cfg s.rbuf e.code e.info

/-- R112 to R183: the meaning of a command that its interface serves is its effect. -/
theorem exec_eq_run_of_served {i : Instr} {s : State} (hserved : i.opcode.servedOn s.active = true) :
    exec i s = .next ((servedEffect i s.params s.cfg s.rbuf).run s) := by
  cases i with
  | cfgLoad psz hsz dsz sent idle =>
    refine (if_pos hserved).trans ?_
    rw [servedEffect]
    split
    · rw [Effect.run_reply]
      rfl
    · rw [Effect.run_refuse]
  | rxIngest chunk =>
    refine (if_pos hserved).trans ?_
    rw [servedEffect]
    split
    · rw [Effect.run_refuse]
    split
    · rw [Effect.run_reply]
      rfl
    · rw [Effect.run, Effect.outputs, List.zip_nil_left, List.map_nil, List.append_nil]
      rfl
  | rxReset =>
    refine (if_pos hserved).trans ?_
    rw [servedEffect, Effect.run_reply]
    rfl
  | txFrameSelf hdr dat =>
    have htx := (eachCommandIsServedOnItsInterfaces (.txFrameSelf hdr dat) s.active).mp hserved
    rw [servedEffect, exec]
    split
    next hsizes =>
      rw [execTxFrameSelf_of_sizes htx hsizes, State.writeAll_eq]
      rfl
    next hsizes =>
      rw [execTxFrameSelf_of_wrong_sizes htx (Bool.eq_false_iff.mpr hsizes), Effect.run_refuse]
  | txFramePair hdr dat =>
    have htx := (eachCommandIsServedOnItsInterfaces (.txFramePair hdr dat) s.active).mp hserved
    rw [servedEffect, exec]
    split
    next hsizes =>
      rw [execTxFramePair_of_sizes htx hsizes, State.writeAll_eq]
      rfl
    next hsizes =>
      rw [execTxFramePair_of_wrong_sizes htx (Bool.eq_false_iff.mpr hsizes), Effect.run_refuse]
  | pktSplit body =>
    refine (if_pos hserved).trans ?_
    rw [servedEffect]
    split
    · rw [Effect.run_reply]
      rfl
    · rw [Effect.run_refuse]

/-- R94, R112 to R183: the meaning of every command, served or not, is its effect. -/
theorem exec_eq_run (i : Instr) (s : State) :
    exec i s = .next ((effect i s.active s.params s.cfg s.rbuf).run s) := by
  cases hserved : i.opcode.servedOn s.active with
  | false =>
    rw [exec_of_not_servedOn hserved, effect, if_neg (Bool.eq_false_iff.mp hserved), Effect.run_refuse]
    rfl
  | true => rw [exec_eq_run_of_served hserved, effect, if_pos hserved]

/-- R81: a step that takes a descriptor runs the descriptor's effect in the state left by taking it. -/
theorem step_eq_run {s : State} {a : Iface} {turns : List Turn} {d : List Byte}
    {rest : List (List Byte)} (hturn : s.schedule = .serve a :: turns)
    (hwaiting : s.pending a = d :: rest) :
    step s = .next ((descriptorEffect d a s.params s.cfg s.rbuf).run
      (s.tookTurn.tookCommand a rest)) := by
  cases hdecode : decode d with
  | error e =>
    have hrun := Effect.run_refuse (s.tookTurn.tookCommand a rest) (.illegalCommand e.opcodeInfo)
    rw [State.tookCommand_cfg, State.tookCommand_rbuf, State.tookTurn_cfg, State.tookTurn_rbuf] at hrun
    simp only [step_of_decode_error hturn hwaiting hdecode, descriptorEffect, hdecode, hrun]
    rfl
  | ok i =>
    simp only [step_of_decode_ok hturn hwaiting hdecode, descriptorEffect, hdecode, exec_eq_run,
      State.tookCommand_active, State.tookCommand_params, State.tookCommand_cfg, State.tookCommand_rbuf,
      State.tookTurn_params, State.tookTurn_cfg, State.tookTurn_rbuf]

/-! ### What effects there are -/

/-- The effects that command `i`, by interface `a`, can have on registers `c` and `rbuf`. -/
inductive CommandEffect (i : Instr) (a : Iface) (p : Params) (c : PacketFormat) (rbuf : List Byte) :
    Effect → Prop
  | refused (e : CommandError) : CommandEffect i a p c rbuf (.refuse c rbuf e)
  | answered (info : List Byte) : CommandEffect i a p c rbuf (.reply c rbuf statusOk info)
  | loaded (c' : PacketFormat) (hctrl : a = .ctrl)
      (hi : i = .cfgLoad c'.packetSize c'.headerSize c'.dataSize c'.sentinelByte c'.idleByte)
      (hlegal : c'.Legal p) : CommandEffect i a p c rbuf (.reply c' [] statusOk [])
  | ingested (chunk : List Byte) (hrx : a = .rx) (hi : i = .rxIngest chunk) (hne : chunk ≠ [])
      (packets : List (List Byte × List Byte)) (info : List Byte) :
      CommandEffect i a p c rbuf
        { Effect.reply c (rxRun Config.noSentPolicy c (rbuf ++ chunk)).2 statusOk info with
          packets := packets }
  | cleared (hrx : a = .rx) (hi : i = .rxReset) : CommandEffect i a p c rbuf (.reply c [] statusOk [])
  | framed (htx : a = .tx) (hdr dat : List Byte)
      (hi : i = .txFrameSelf hdr dat ∨ i = .txFramePair hdr dat)
      (hsizes : packetSizesMatch c hdr dat = true) (writes : List (List Byte))
      (wok : List Bool → Byte) :
      CommandEffect i a p c rbuf
        { Effect.reply c rbuf statusOk [] with writes := writes, info := fun answers => [wok answers] }

/-- Every command has one of these effects. -/
theorem commandEffect_effect (i : Instr) (a : Iface) (p : Params) (c : PacketFormat)
    (rbuf : List Byte) : CommandEffect i a p c rbuf (effect i a p c rbuf) := by
  have hiff := eachCommandIsServedOnItsInterfaces i a
  rw [effect]
  split
  next hserved =>
    have ha := hiff.mp hserved
    cases i with
    | cfgLoad psz hsz dsz sent idle =>
      rw [servedEffect]
      split
      next haccepted => exact .loaded _ ha rfl ((formatAccepted_iff p psz hsz dsz).mp haccepted)
      next => exact .refused _
    | rxIngest chunk =>
      rw [servedEffect]
      split
      next => exact .refused _
      next =>
        split
        next => exact .answered _
        next hne => exact .ingested chunk ha rfl (mt List.length_eq_zero_iff.mpr hne) _ _
    | rxReset => exact .cleared ha rfl
    | txFrameSelf hdr dat =>
      rw [servedEffect]
      split
      next hsizes => exact .framed ha hdr dat (.inl rfl) hsizes _ _
      next => exact .refused _
    | txFramePair hdr dat =>
      rw [servedEffect]
      split
      next hsizes => exact .framed ha hdr dat (.inr rfl) hsizes _ _
      next => exact .refused _
    | pktSplit body =>
      rw [servedEffect]
      split
      next => exact .answered _
      next => exact .refused _
  next => exact .refused _

/-- A descriptor is refused, or has an effect of the command it decodes to. -/
theorem descriptorEffect_cases (d : List Byte) (a : Iface) (p : Params) (c : PacketFormat)
    (rbuf : List Byte) :
    (∃ e, descriptorEffect d a p c rbuf = .refuse c rbuf e) ∨
      ∃ i, decode d = .ok i ∧ CommandEffect i a p c rbuf (descriptorEffect d a p c rbuf) := by
  cases hdecode : decode d with
  | error e => exact .inl ⟨.illegalCommand e.opcodeInfo, by simp only [descriptorEffect, hdecode]⟩
  | ok i =>
    have heffect : descriptorEffect d a p c rbuf = effect i a p c rbuf := by
      simp only [descriptorEffect, hdecode]
    exact .inr ⟨i, rfl, heffect ▸ commandEffect_effect i a p c rbuf⟩

end Sys2Proof.Machine
end

section
/-! A step (20_memory.md R53, R57; 70_reset_and_hazards.md R250): what it does to each field, from the four
ways it can go; and the invariant of the state (10_state.md R25, R32). -/

namespace Sys2Proof.Machine

/-! ### The four ways a step can go -/

/-- R238: a step with no turn to take. -/
theorem step_of_no_turn {s : State} (hturn : s.schedule = []) : step s = .next s := by
  simp only [step, fetch, hturn]

/-- R250: a step that is hardware reset. -/
theorem step_of_reset {s : State} {turns : List Turn} (hturn : s.schedule = .hardwareReset :: turns) :
    step s = .next s.tookTurn.hardwareReset := by
  simp only [step, fetch, hturn]

/-- R238: a step of an agent for which nothing waits. -/
theorem step_of_nothing_waiting {s : State} {a : Iface} {turns : List Turn}
    (hturn : s.schedule = .serve a :: turns) (hwaiting : s.pending a = []) :
    step s = .next s.tookTurn := by
  simp only [step, fetch, hturn, hwaiting]

/-- Where a step can come to: nothing but the turn changes, the registers are reset, or the effect of the
descriptor taken is carried out. -/
inductive StepResult (s : State) : State → Prop
  | noTurn (hturn : s.schedule = []) : StepResult s s
  | reset (turns : List Turn) (hturn : s.schedule = .hardwareReset :: turns) :
      StepResult s s.tookTurn.hardwareReset
  | idle (a : Iface) (turns : List Turn) (hturn : s.schedule = .serve a :: turns)
      (hwaiting : s.pending a = []) : StepResult s s.tookTurn
  | command (a : Iface) (turns : List Turn) (d : List Byte) (rest : List (List Byte))
      (hturn : s.schedule = .serve a :: turns) (hwaiting : s.pending a = d :: rest) :
      StepResult s ((descriptorEffect d a s.params s.cfg s.rbuf).run (s.tookTurn.tookCommand a rest))

/-- Every step comes to one of these states. -/
theorem exists_stepResult (s : State) : ∃ t, step s = .next t ∧ StepResult s t := by
  cases hturn : s.schedule with
  | nil => exact ⟨_, step_of_no_turn hturn, .noTurn hturn⟩
  | cons turn turns =>
    cases turn with
    | hardwareReset => exact ⟨_, step_of_reset hturn, .reset turns hturn⟩
    | serve a =>
      cases hwaiting : s.pending a with
      | nil => exact ⟨_, step_of_nothing_waiting hturn hwaiting, .idle a turns hturn hwaiting⟩
      | cons d rest => exact ⟨_, step_eq_run hturn hwaiting, .command a turns d rest hturn hwaiting⟩

/-- What a step came to is one of these states. -/
theorem stepResult_of_step {s t : State} (h : step s = .next t) : StepResult s t := by
  obtain ⟨u, hu, hresult⟩ := exists_stepResult s
  obtain rfl : u = t := by simpa [hu] using h
  exact hresult

/-- Settles O12: each of the four ways ends in a next state. -/
theorem everyStepHasANextState : Obligations.EveryStepHasANextState := by
  intro s
  obtain ⟨t, ht, _⟩ := exists_stepResult s
  exact ⟨t, ht⟩

/-- Settles O7: the state that the command runs in is the one left by taking its descriptor. -/
theorem stepRunsTheDecodedCommand : Obligations.StepRunsTheDecodedCommand := by
  intro s a turns d rest i hturn hwaiting hdecode
  rw [step_of_decode_ok hturn hwaiting hdecode, tookTurn_tookCommand_eq hturn]

/-- Settles O11: both idle steps leave the state, the second one with its turn taken. -/
theorem idleStepKeepsEverything : Obligations.IdleStepKeepsEverything := by
  refine ⟨fun s hturn => step_of_no_turn hturn, fun s a turns hturn hwaiting => ?_⟩
  rw [step_of_nothing_waiting hturn hwaiting, State.tookTurn, hturn, List.tail_cons]

/-! ### Reset -/

/-- Settles O15: every field as `State.resetWith` gives it. -/
theorem resetStateIsTheSpecs : Obligations.ResetStateIsTheSpecs :=
  ⟨fun _ => ⟨rfl, rfl, rfl, rfl, rfl, rfl, fun a => by cases a <;> rfl, rfl, rfl⟩, Config.params, rfl⟩

/-- Settles O16: the turn is taken, and the registers are written. -/
theorem hardwareResetRestoresDefaults : Obligations.HardwareResetRestoresDefaults := by
  intro s turns hturn
  rw [step_of_reset hturn, State.tookTurn, hturn]
  rfl

/-- R6: the parameters at reset are in their ranges, whatever their free values. -/
theorem config_params_legal : Config.params.Legal := by
  have hpMax := Nat.mod_lt Config.pMaxSeed (y := 65533 - 64 + 1) (by omega)
  have hchunkMax := Nat.mod_lt Config.chunkMaxSeed (y := 65535) (by omega)
  simp only [Params.Legal, Config.params]
  omega

/-- R114: every legal PMAX admits the default format. -/
theorem default_legal {p : Params} (hp : p.Legal) : PacketFormat.default.Legal p :=
  ⟨by decide, hp.1.1, rfl⟩

/-- Settles O17: the default format is legal and the residual buffer is empty. -/
theorem invariantHoldsAtReset : Obligations.InvariantHoldsAtReset :=
  ⟨config_params_legal, default_legal config_params_legal, Nat.zero_le _⟩

/-! ### The response -/

/-- R221: every status code is at most 4. -/
theorem CommandError.code_le (e : CommandError) : e.code.toNat ≤ 4 := by
  cases e <;> simp [CommandError.code]

/-- R221: so is the status of every effect of a command. -/
theorem CommandEffect.status_le {i : Instr} {a : Iface} {p : Params} {c : PacketFormat}
    {rbuf : List Byte} {e : Effect} (h : CommandEffect i a p c rbuf e) : e.status.toNat ≤ 4 := by
  cases h with
  | refused e => exact e.code_le
  | _ => exact Nat.zero_le 4

/-- R221: the first byte of a response is a status code. -/
theorem descriptorEffect_status_le (d : List Byte) (a : Iface) (p : Params) (c : PacketFormat)
    (rbuf : List Byte) : (descriptorEffect d a p c rbuf).status.toNat ≤ 4 := by
  obtain ⟨e, heffect⟩ | ⟨i, _, heffect⟩ := descriptorEffect_cases d a p c rbuf
  · rw [heffect]
    exact e.code_le
  · exact heffect.status_le

/-- Settles O13: the effect's outputs come first and hold no response, then comes the one response. -/
theorem eachCommandGivesOneResponseLast : Obligations.EachCommandGivesOneResponseLast := by
  intro s t a turns d rest hturn hwaiting hstep
  rw [step_eq_run hturn hwaiting] at hstep
  cases hstep
  have htrace := Effect.run_trace (descriptorEffect d a s.params s.cfg s.rbuf)
    (s.tookTurn.tookCommand a rest)
  rw [State.tookCommand_trace, State.tookTurn_trace, State.tookCommand_active] at htrace
  exact ⟨_, _, _, htrace, fun event => Effect.isResponse_of_mem_outputs _ _,
    descriptorEffect_status_le d a s.params s.cfg s.rbuf⟩

/-! ### The registers -/

/-- Settles O19: taking a turn, resetting and running an effect keep the parameters. -/
theorem noStepChangesTheParameters : Obligations.NoStepChangesTheParameters := by
  intro s t hstep
  cases stepResult_of_step hstep with
  | noTurn => rfl
  | reset => rfl
  | idle => rfl
  | command a turns d rest =>
    rw [Effect.run_params, State.tookCommand_params, State.tookTurn_params]

/-- What a step does to the registers, and which command does it. -/
inductive RegisterChange (s t : State) : Prop
  | none (hcfg : t.cfg = s.cfg) (hrbuf : t.rbuf = s.rbuf)
  | reset (hturn : s.schedule.head? = some .hardwareReset) (hcfg : t.cfg = PacketFormat.default)
      (hrbuf : t.rbuf = [])
  | loaded (hturn : s.schedule.head? = some (.serve .ctrl)) (d : List Byte) (rest : List (List Byte))
      (hwaiting : s.cmdCtrl = d :: rest)
      (hdecode : decode d = .ok (.cfgLoad t.cfg.packetSize t.cfg.headerSize t.cfg.dataSize
        t.cfg.sentinelByte t.cfg.idleByte))
      (hlegal : t.cfg.Legal s.params) (hrbuf : t.rbuf = [])
  | ingested (hturn : s.schedule.head? = some (.serve .rx)) (d : List Byte) (rest : List (List Byte))
      (hwaiting : s.cmdRx = d :: rest) (chunk : List Byte) (hne : chunk ≠ [])
      (hdecode : decode d = .ok (.rxIngest chunk)) (hcfg : t.cfg = s.cfg)
      (hrbuf : t.rbuf = (rxRun Config.noSentPolicy s.cfg (s.rbuf ++ chunk)).2)
  | cleared (hturn : s.schedule.head? = some (.serve .rx)) (d : List Byte) (rest : List (List Byte))
      (hwaiting : s.cmdRx = d :: rest) (hdecode : decode d = .ok .rxReset) (hcfg : t.cfg = s.cfg)
      (hrbuf : t.rbuf = [])

/-- R24, R64, R110: every step does one of these things to the registers. -/
theorem registerChange_of_step {s t : State} (hstep : step s = .next t) : RegisterChange s t := by
  cases stepResult_of_step hstep with
  | noTurn => exact .none rfl rfl
  | reset turns hturn => exact .reset (by rw [hturn]; rfl) rfl rfl
  | idle => exact .none rfl rfl
  | command a turns d rest hturn hwaiting =>
    have hhead : s.schedule.head? = some (.serve a) := by rw [hturn]; rfl
    obtain ⟨e, heffect⟩ | ⟨i, hdecode, heffect⟩ := descriptorEffect_cases d a s.params s.cfg s.rbuf
    · rw [heffect]
      exact .none rfl rfl
    · generalize descriptorEffect d a s.params s.cfg s.rbuf = effect at heffect
      cases heffect with
      | refused e => exact .none rfl rfl
      | answered info => exact .none rfl rfl
      | loaded c' hctrl hi hlegal =>
        subst hctrl hi
        exact .loaded hhead d rest hwaiting hdecode hlegal rfl
      | ingested chunk hrx hi hne packets info =>
        subst hrx hi
        exact .ingested hhead d rest hwaiting chunk hne hdecode rfl rfl
      | cleared hrx hi =>
        subst hrx hi
        exact .cleared hhead d rest hwaiting hdecode rfl rfl
      | framed => exact .none rfl rfl

/-- Settles O18: CFG.LOAD and reset leave a legal format and an empty buffer, RX.INGEST keeps the format and
leaves less than a window. -/
theorem everyStepKeepsTheInvariant : Obligations.EveryStepKeepsTheInvariant := by
  intro s t ⟨hparams, hlegal, hrbuf⟩ hstep
  have hsame := noStepChangesTheParameters s t hstep
  rw [State.Inv, hsame]
  refine ⟨hparams, ?_⟩
  cases registerChange_of_step hstep with
  | none hcfg hkept =>
    rw [hcfg, hkept]
    exact ⟨hlegal, hrbuf⟩
  | reset _ hcfg hempty =>
    rw [hcfg, hempty]
    exact ⟨default_legal hparams, Nat.zero_le _⟩
  | loaded _ _ _ _ _ hlegal' hempty =>
    rw [hempty]
    exact ⟨hlegal', Nat.zero_le _⟩
  | ingested _ _ _ _ _ _ _ hcfg hrest =>
    rw [hcfg, hrest]
    exact ⟨hlegal, rxRun_rest_length_le _⟩
  | cleared _ _ _ _ _ hcfg hempty =>
    rw [hcfg, hempty]
    exact ⟨hlegal, Nat.zero_le _⟩

/-- Settles O20: of the changes of the registers, those that change the format. -/
theorem configurationChangesOnlyAtCfgLoadOrReset :
    Obligations.ConfigurationChangesOnlyAtCfgLoadOrReset := by
  intro s t hstep hchanged
  cases registerChange_of_step hstep with
  | none hcfg _ => exact absurd hcfg hchanged
  | reset hturn _ _ => exact .inl hturn
  | loaded hturn d rest hwaiting hdecode hlegal hempty =>
    exact .inr ⟨hturn, hlegal, hempty, d, rest, hwaiting, hdecode⟩
  | ingested _ _ _ _ _ _ _ hcfg _ => exact absurd hcfg hchanged
  | cleared _ _ _ _ _ hcfg _ => exact absurd hcfg hchanged

/-- Settles O21: of the changes of the registers, those that change the residual buffer. -/
theorem residualBufferBelongsToRx : Obligations.ResidualBufferBelongsToRx := by
  intro s t hstep hchanged
  cases registerChange_of_step hstep with
  | none _ hkept => exact absurd hkept hchanged
  | reset hturn _ hempty => exact .inr (.inr ⟨hturn, hempty⟩)
  | loaded hturn d rest hwaiting hdecode _ hempty =>
    exact .inr (.inl ⟨hturn, hempty, d, rest, hwaiting, hdecode⟩)
  | ingested hturn d rest hwaiting chunk hne hdecode hcfg _ =>
    exact .inl ⟨hturn, hcfg, d, rest, hwaiting, .inl ⟨chunk, hne, hdecode⟩⟩
  | cleared hturn d rest hwaiting hdecode hcfg hempty =>
    exact .inl ⟨hturn, hcfg, d, rest, hwaiting, .inr ⟨hdecode, hempty⟩⟩

end Sys2Proof.Machine
end

section
/-! What no command reads (10_state.md R31, 30_encoding.md R87): the effect of a command does not depend on the
host's answers, which reach its WOK byte alone, nor on the idle byte, which reaches the registers alone. -/

namespace Sys2Proof.Machine

/-! ### The host's answers -/

section
variable {i : Instr} {a : Iface} {p : Params} {c : PacketFormat} {rbuf : List Byte} {e : Effect}

/-- R87, R88: all that the answers can change in a response is its second byte. -/
theorem CommandEffect.info_set_eq (h : CommandEffect i a p c rbuf e) (answers answers' : List Bool) :
    (e.info answers).set 0 0x00 = (e.info answers').set 0 0x00 := by
  cases h <;> rfl

/-- R140 to R142: only a framing command on CMD_TX with the right sizes writes. -/
theorem CommandEffect.writes_eq_nil (h : CommandEffect i a p c rbuf e)
    (hother : ¬ (a = .tx ∧ ∃ hdr dat, (i = .txFrameSelf hdr dat ∨ i = .txFramePair hdr dat) ∧
      hdr.length = c.H ∧ dat.length = c.D)) : e.writes = [] := by
  cases h with
  | framed htx hdr dat hi hsizes writes wok =>
    exact absurd ⟨htx, hdr, dat, hi, (packetSizesMatch_iff c hdr dat).mp hsizes⟩ hother
  | _ => rfl

end

/-- A command that writes nothing takes no answers, and gives its packets and its response. -/
theorem Effect.run_trace_of_no_write {e : Effect} (hwrites : e.writes = []) (s : State) :
    (e.run s).trace = s.trace ++ e.packets.map (fun p => Event.rxOut p.1 p.2) ++
      [.response s.active (e.status :: e.info [])] := by
  rw [Effect.run_trace, Effect.outputs, hwrites, List.zip_nil_left, List.map_nil, List.append_nil]
  rfl

/-- Settles O30: both runs are of the same effect, whose response tells the answers apart in WOK alone. -/
theorem writeAnswersReachOnlyTheResponse : Obligations.WriteAnswersReachOnlyTheResponse := by
  intro i s t u other ht hu
  have heffect := commandEffect_effect i s.active s.params s.cfg s.rbuf
  rw [exec_eq_run] at ht hu
  cases ht
  cases hu
  generalize effect i s.active s.params s.cfg s.rbuf = e at heffect
  refine ⟨rfl, ?_, ?_, fun a => ?_, fun hother => ?_⟩
  · rw [Effect.run_rxOut, Effect.run_rxOut]
    rfl
  · rw [Effect.run_txBuffers, Effect.run_txBuffers]
    rfl
  · rw [Effect.run_responses, Effect.run_responses, List.map_append, List.map_append]
    refine congrArg₂ (· ++ ·) rfl ?_
    split
    · simp only [List.map_cons, List.map_nil, List.set_cons_succ,
        heffect.info_set_eq _ (s.answersTo e.writes.length)]
    · rfl
  · have hwrites := heffect.writes_eq_nil hother
    rw [Effect.run_trace_of_no_write hwrites, Effect.run_trace_of_no_write hwrites]

/-! ### The idle byte -/

/-- R31, R191: the micro-step does not read the idle byte. -/
theorem rxStep_idleByte (pol : NoSentPolicy) (c : PacketFormat) (idle : Byte) (buf : List Byte) :
    rxStep pol { c with idleByte := idle } buf = rxStep pol c buf := by
  cases pol <;> rfl

/-- R31, R170: nor does the loop. -/
theorem rxRun_idleByte (pol : NoSentPolicy) (c : PacketFormat) (idle : Byte) (buf : List Byte) :
    rxRun pol { c with idleByte := idle } buf = rxRun pol c buf := by
  refine rxRun_induction
    (motive := fun buf run => rxRun pol { c with idleByte := idle } buf = run) ?_ ?_ buf
  · intro buf a rest hstep hexit
    rw [← rxStep_idleByte pol c idle] at hstep
    rw [rxRun_of_exits (by rw [hstep, hexit]), hstep]
  · intro buf a rest hstep hgoes hrest
    rw [← rxStep_idleByte pol c idle] at hstep
    rw [rxRun_of_goes_on hstep hgoes, hrest]

/-- R31: with another idle byte in the registers, a command has the same effect, but that the registers keep
the other byte; an accepted CFG.LOAD has the same effect altogether. -/
theorem effect_idleByte (i : Instr) (a : Iface) (p : Params) (c : PacketFormat) (rbuf : List Byte)
    (idle : Byte) :
    (i.opcode = .cfgLoad ∧ effect i a p { c with idleByte := idle } rbuf = effect i a p c rbuf) ∨
      ((effect i a p c rbuf).cfg = c ∧ effect i a p { c with idleByte := idle } rbuf =
        { effect i a p c rbuf with cfg := { c with idleByte := idle } }) := by
  rw [effect, effect]
  split
  next =>
    cases i with
    | cfgLoad psz hsz dsz sent idle' =>
      rw [servedEffect, servedEffect]
      split
      · exact .inl ⟨rfl, rfl⟩
      · exact .inr ⟨rfl, rfl⟩
    | rxIngest chunk =>
      rw [servedEffect, servedEffect, rxRun_idleByte]
      split
      · exact .inr ⟨rfl, rfl⟩
      split <;> exact .inr ⟨rfl, rfl⟩
    | rxReset => exact .inr ⟨rfl, rfl⟩
    | txFrameSelf hdr dat =>
      have hsizes : packetSizesMatch { c with idleByte := idle } hdr dat = packetSizesMatch c hdr dat := rfl
      rw [servedEffect, servedEffect, hsizes]
      split <;> exact .inr ⟨rfl, rfl⟩
    | txFramePair hdr dat =>
      have hsizes : packetSizesMatch { c with idleByte := idle } hdr dat = packetSizesMatch c hdr dat := rfl
      rw [servedEffect, servedEffect, hsizes]
      split <;> exact .inr ⟨rfl, rfl⟩
    | pktSplit body =>
      rw [servedEffect, servedEffect]
      split <;> exact .inr ⟨rfl, rfl⟩
  next => exact .inr ⟨rfl, rfl⟩

/-- Settles O32: the effect is the same but for the idle byte that the registers keep. -/
theorem idleByteIsReadByNoCommand : Obligations.IdleByteIsReadByNoCommand := by
  intro i s t other ht
  rw [exec_eq_run] at ht
  cases ht
  refine ⟨_, exec_eq_run _ _, ?_⟩
  obtain ⟨hload, hsame⟩ | ⟨hcfg, hsame⟩ :=
    effect_idleByte i s.active s.params s.cfg s.rbuf other
  · rw [hsame]
    exact ⟨rfl, fun hother => absurd hload hother⟩
  · rw [hsame]
    generalize effect i s.active s.params s.cfg s.rbuf = e at hcfg
    have hkept : { s.cfg with idleByte := e.cfg.idleByte } = e.cfg := by rw [hcfg]
    exact ⟨congrArg (fun c => { e.run s with cfg := c }) hkept, fun _ => rfl⟩

end Sys2Proof.Machine
end

section
/-! Interleaving (20_memory.md R53): what one agent reads and what a run shows of it is kept by the turns of
another agent, and its own turns change it in the same way whatever the rest of the state. So a run shows of
an agent what a run of that agent's turns alone shows. -/

namespace Sys2Proof.Machine

/-- The two states agree in what RX or TX, if it is agent `a`, reads in its turns, and in what a run shows of
agent `a`. -/
structure SameFor (a : Iface) (s s' : State) : Prop where
  cfg : s.cfg = s'.cfg
  params : s.params = s'.params
  pending : s.pending a = s'.pending a
  responses : s.responses a = s'.responses a
  rbuf : a = .rx → s.rbuf = s'.rbuf
  rxOut : a = .rx → s.rxOut = s'.rxOut
  answers : a = .tx → s.answers = s'.answers
  txOut : a = .tx → s.txOut = s'.txOut

section
variable {a b : Iface} {s s' s'' t : State} {turns : List Turn}

theorem SameFor.symm (h : SameFor a s s') : SameFor a s' s where
  cfg := h.cfg.symm
  params := h.params.symm
  pending := h.pending.symm
  responses := h.responses.symm
  rbuf ha := (h.rbuf ha).symm
  rxOut ha := (h.rxOut ha).symm
  answers ha := (h.answers ha).symm
  txOut ha := (h.txOut ha).symm

theorem SameFor.trans (h : SameFor a s s') (h' : SameFor a s' s'') : SameFor a s s'' where
  cfg := h.cfg.trans h'.cfg
  params := h.params.trans h'.params
  pending := h.pending.trans h'.pending
  responses := h.responses.trans h'.responses
  rbuf ha := (h.rbuf ha).trans (h'.rbuf ha)
  rxOut ha := (h.rxOut ha).trans (h'.rxOut ha)
  answers ha := (h.answers ha).trans (h'.answers ha)
  txOut ha := (h.txOut ha).trans (h'.txOut ha)

/-- The turns still to come are neither read nor shown. -/
theorem SameFor.withSchedule (a : Iface) (s : State) (turns : List Turn) :
    SameFor a { s with schedule := turns } s :=
  ⟨rfl, rfl, by cases a <;> rfl, rfl, fun _ => rfl, fun _ => rfl, fun _ => rfl, fun _ => rfl⟩

/-- Taking a turn changes nothing that an agent reads. -/
theorem SameFor.tookTurn (a : Iface) (s : State) : SameFor a s.tookTurn s :=
  .withSchedule a s s.schedule.tail

/-- Taking a descriptor from an interface changes that interface's queue alone. -/
theorem SameFor.tookCommand (h : SameFor a s s') (rest : List (List Byte)) :
    SameFor a (s.tookCommand a rest) (s'.tookCommand a rest) := by
  cases a <;> exact ⟨h.cfg, h.params, rfl, h.responses, h.rbuf, h.rxOut, h.answers, h.txOut⟩

/-- Another agent's taking a descriptor leaves the queue as it was. -/
theorem SameFor.tookCommand_of_ne (hne : a ≠ b) (s : State) (rest : List (List Byte)) :
    SameFor a (s.tookCommand b rest) s where
  cfg := s.tookCommand_cfg b rest
  params := s.tookCommand_params b rest
  pending := by
    rw [← State.pending_setPending_of_ne hne rest (s := s)]
    cases a <;> rfl
  responses := by rw [State.responses, State.tookCommand_trace, State.responses]
  rbuf _ := s.tookCommand_rbuf b rest
  rxOut _ := by rw [State.rxOut, State.tookCommand_trace, State.rxOut]
  answers _ := s.tookCommand_answers b rest
  txOut _ := by rw [State.txOut, State.tookCommand_trace, State.txOut]

/-! ### The effects of one agent's commands -/

/-- What the effects of the commands that came by interface `b` leave to the other agents: RX and TX do not
write the format, only RX gives packets, only TX issues writes, and TX keeps the residual buffer. -/
structure Effect.Confined (e : Effect) (b : Iface) (c : PacketFormat) (rbuf : List Byte) : Prop where
  cfg : b ≠ .ctrl → e.cfg = c
  rbuf : b = .tx → e.rbuf = rbuf
  packets : b ≠ .rx → e.packets = []
  writes : b ≠ .tx → e.writes = []

/-- R27, R110: every command's effect is confined to its agent. -/
theorem CommandEffect.confined {i : Instr} {p : Params} {c : PacketFormat} {rbuf : List Byte} {e : Effect}
    (h : CommandEffect i b p c rbuf e) : e.Confined b c rbuf := by
  cases h with
  | refused => exact ⟨fun _ => rfl, fun _ => rfl, fun _ => rfl, fun _ => rfl⟩
  | answered => exact ⟨fun _ => rfl, fun _ => rfl, fun _ => rfl, fun _ => rfl⟩
  | loaded c' hctrl =>
    exact ⟨fun hb => absurd hctrl hb, (nomatch hctrl.symm.trans ·), fun _ => rfl, fun _ => rfl⟩
  | ingested chunk hrx =>
    exact ⟨fun _ => rfl, (nomatch hrx.symm.trans ·), fun hb => absurd hrx hb, fun _ => rfl⟩
  | cleared hrx => exact ⟨fun _ => rfl, (nomatch hrx.symm.trans ·), fun _ => rfl, fun _ => rfl⟩
  | framed htx => exact ⟨fun _ => rfl, fun _ => rfl, fun _ => rfl, fun hb => absurd htx hb⟩

/-- And so is a descriptor's. -/
theorem descriptorEffect_confined (d : List Byte) (b : Iface) (p : Params) (c : PacketFormat)
    (rbuf : List Byte) : (descriptorEffect d b p c rbuf).Confined b c rbuf := by
  obtain ⟨e, heffect⟩ | ⟨i, _, heffect⟩ := descriptorEffect_cases d b p c rbuf
  · rw [heffect]
    exact ⟨fun _ => rfl, fun _ => rfl, fun _ => rfl, fun _ => rfl⟩
  · exact heffect.confined

/-- R27, R144: what TX does, but for leaving the residual buffer as it is, does not depend on it. -/
theorem effect_tx_rbuf (i : Instr) (p : Params) (c : PacketFormat) (rbuf rbuf' : List Byte) :
    effect i .tx p c rbuf' = { effect i .tx p c rbuf with rbuf := rbuf' } := by
  cases i with
  | cfgLoad => rfl
  | rxIngest => rfl
  | rxReset => rfl
  | txFrameSelf hdr dat =>
    simp only [effect, servedEffect]
    cases packetSizesMatch c hdr dat <;> rfl
  | txFramePair hdr dat =>
    simp only [effect, servedEffect]
    cases packetSizesMatch c hdr dat <;> rfl
  | pktSplit body =>
    by_cases hbody : body.length = c.P
    · simp only [effect, servedEffect, if_pos hbody]
      rfl
    · simp only [effect, servedEffect, if_neg hbody]
      rfl

/-- R27, R144: the same for a descriptor. -/
theorem descriptorEffect_tx_rbuf (d : List Byte) (p : Params) (c : PacketFormat)
    (rbuf rbuf' : List Byte) :
    descriptorEffect d .tx p c rbuf' = { descriptorEffect d .tx p c rbuf with rbuf := rbuf' } := by
  cases hdecode : decode d with
  | error e =>
    simp only [descriptorEffect, hdecode]
    rfl
  | ok i => simp only [descriptorEffect, hdecode, effect_tx_rbuf i p c rbuf rbuf']

/-- The writes issued so far are those that a run shows. -/
theorem State.writesIssued_eq_length_txOut (s : State) : s.writesIssued = s.txOut.length := by
  have hwrite : Event.isWrite = fun event => (Event.write? event).isSome := by
    funext event
    cases event <;> rfl
  rw [State.writesIssued, State.txOut, List.length_filterMap_eq_countP, hwrite]

/-- R87: TX's answers depend on what is the same for it. -/
theorem SameFor.answersTo_eq (h : SameFor .tx s s') (n : Nat) : s.answersTo n = s'.answersTo n := by
  have hanswerAt : s.answerAt = s'.answerAt := by
    funext k
    rw [State.answerAt, State.answerAt, State.writesIssued_eq_length_txOut,
      State.writesIssued_eq_length_txOut, h.answers rfl, h.txOut rfl]
  rw [State.answersTo, State.answersTo, hanswerAt]

/-- R53: an agent's effect, carried out in two states that are the same for it, leaves them the same for it;
the residual buffers may differ unless the agent is RX. -/
theorem SameFor.run {c : PacketFormat} {rbuf rbuf' : List Byte} {e : Effect} (h : SameFor a s s')
    (hactive : s.active = s'.active) (hconfined : e.Confined a c rbuf)
    (hrbuf : a = .rx → e.rbuf = rbuf') :
    SameFor a (e.run s) ({ e with rbuf := rbuf' }.run s') := by
  have hanswers : s.answersTo e.writes.length = s'.answersTo e.writes.length := by
    by_cases htx : a = .tx
    · subst htx
      exact h.answersTo_eq _
    · rw [hconfined.writes htx]
      rfl
  exact {
    cfg := rfl
    params := h.params
    pending := by rw [Effect.run_pending, Effect.run_pending, h.pending]
    responses := by rw [Effect.run_responses, Effect.run_responses, h.responses, hanswers, hactive]
    rbuf := hrbuf
    rxOut := fun ha => by rw [Effect.run_rxOut, Effect.run_rxOut, h.rxOut ha]
    answers := fun ha => by rw [Effect.run_answers, Effect.run_answers, h.answers ha]
    txOut := fun ha => by rw [Effect.run_txOut, Effect.run_txOut, h.txOut ha, hanswers] }

/-- Another agent's effect keeps what an agent reads and what a run shows of it, unless it is CTRL's. -/
theorem SameFor.run_of_ne {e : Effect} (hb : b ≠ .ctrl) (hne : a ≠ b) (hactive : s.active = b)
    (hconfined : e.Confined b s.cfg s.rbuf) : SameFor a (e.run s) s where
  cfg := hconfined.cfg hb
  params := rfl
  pending := e.run_pending s a
  responses := by
    rw [Effect.run_responses, if_neg (fun h => hne (h.symm.trans hactive)), List.append_nil]
  rbuf ha := by
    cases b with
    | ctrl => exact absurd rfl hb
    | rx => exact absurd ha hne
    | tx => exact hconfined.rbuf rfl
  rxOut ha := by rw [Effect.run_rxOut, hconfined.packets (ha ▸ hne.symm), List.append_nil]
  answers ha := by rw [Effect.run_answers, hconfined.writes (ha ▸ hne.symm)]; rfl
  txOut ha := by
    rw [Effect.run_txOut, hconfined.writes (ha ▸ hne.symm), List.zip_nil_left, List.append_nil]

/-! ### Turns -/

/-- An agent's own turn, in two states that are the same for it. -/
theorem exists_step_of_own_turn {turns' : List Turn} (ha : a ≠ .ctrl) (h : SameFor a s s')
    (hturn : s.schedule = .serve a :: turns) (hturn' : s'.schedule = .serve a :: turns') :
    ∃ t t', step s = .next t ∧ step s' = .next t' ∧ t.schedule = turns ∧ t'.schedule = turns' ∧
      SameFor a t t' := by
  have htail : s.schedule.tail = turns := congrArg List.tail hturn
  have htail' : s'.schedule.tail = turns' := congrArg List.tail hturn'
  have htook : SameFor a s.tookTurn s'.tookTurn :=
    (SameFor.tookTurn a s).trans (h.trans (SameFor.tookTurn a s').symm)
  cases hwaiting : s.pending a with
  | nil =>
    exact ⟨_, _, step_of_nothing_waiting hturn hwaiting,
      step_of_nothing_waiting hturn' (h.pending ▸ hwaiting), htail, htail', htook⟩
  | cons d rest =>
    refine ⟨_, _, step_eq_run hturn hwaiting, step_eq_run hturn' (h.pending ▸ hwaiting), ?_, ?_, ?_⟩
    · rw [Effect.run_schedule, State.tookCommand_schedule, State.tookTurn_schedule, htail]
    · rw [Effect.run_schedule, State.tookCommand_schedule, State.tookTurn_schedule, htail']
    · have hconfined := descriptorEffect_confined d a s.params s.cfg s.rbuf
      have hactive : (s.tookTurn.tookCommand a rest).active = (s'.tookTurn.tookCommand a rest).active := by
        rw [State.tookCommand_active, State.tookCommand_active]
      rw [← h.params, ← h.cfg]
      cases a with
      | ctrl => exact absurd rfl ha
      | rx =>
        rw [← h.rbuf rfl]
        exact (htook.tookCommand rest).run hactive hconfined fun _ => rfl
      | tx =>
        rw [descriptorEffect_tx_rbuf d s.params s.cfg s.rbuf s'.rbuf]
        exact (htook.tookCommand rest).run hactive hconfined nofun

/-- Another agent's turn, RX's or TX's, keeps what is the same for an agent. -/
theorem exists_step_of_other_turn (hb : b ≠ .ctrl) (hne : a ≠ b)
    (hturn : s.schedule = .serve b :: turns) :
    ∃ t, step s = .next t ∧ t.schedule = turns ∧ SameFor a t s := by
  have htail : s.schedule.tail = turns := congrArg List.tail hturn
  cases hwaiting : s.pending b with
  | nil => exact ⟨_, step_of_nothing_waiting hturn hwaiting, htail, .tookTurn a s⟩
  | cons d rest =>
    refine ⟨_, step_eq_run hturn hwaiting, ?_, ?_⟩
    · rw [Effect.run_schedule, State.tookCommand_schedule, State.tookTurn_schedule, htail]
    · have hconfined := descriptorEffect_confined d b s.params s.cfg s.rbuf
      refine (SameFor.run_of_ne hb hne (State.tookCommand_active _ b rest) ?_).trans
        ((SameFor.tookCommand_of_ne hne _ rest).trans (.tookTurn a s))
      rwa [State.tookCommand_cfg, State.tookCommand_rbuf, State.tookTurn_cfg, State.tookTurn_rbuf]

/-- The first of several steps, and then the others. -/
theorem steps_succ (h : step s = .next t) (n : Nat) : steps (n + 1) s = steps n t := by
  simp only [steps, h]

/-- R53: a run of RX and TX turns and the run of agent `a`'s turns among them end the same for `a`. -/
theorem exists_steps_sameFor (a : Iface)
    (hturns : ∀ turn ∈ turns, turn = .serve .rx ∨ turn = .serve .tx) (hs : s.schedule = turns)
    (hs' : s'.schedule = turns.filter (· == .serve a)) (h : SameFor a s s') :
    ∃ t t', steps turns.length s = .next t ∧
      steps (turns.filter (· == .serve a)).length s' = .next t' ∧ SameFor a t t' := by
  induction turns generalizing s s' with
  | nil => exact ⟨s, s', rfl, rfl, h⟩
  | cons turn turns ih =>
    obtain ⟨hturn, hrest⟩ := List.forall_mem_cons.mp hturns
    obtain ⟨b, hb, rfl⟩ : ∃ b, b ≠ .ctrl ∧ turn = .serve b := by
      obtain rfl | rfl := hturn
      · exact ⟨.rx, nofun, rfl⟩
      · exact ⟨.tx, nofun, rfl⟩
    by_cases hab : a = b
    · subst hab
      have hkeep : (Turn.serve a :: turns).filter (· == .serve a) =
          .serve a :: turns.filter (· == .serve a) := List.filter_cons_of_pos (beq_self_eq_true _)
      rw [hkeep] at hs' ⊢
      obtain ⟨u, u', hu, hu', hsched, hsched', hsame⟩ := exists_step_of_own_turn hb h hs hs'
      obtain ⟨t, t', ht, ht', hsame'⟩ := ih hrest hsched hsched' hsame
      exact ⟨t, t', (steps_succ hu _).trans ht, (steps_succ hu' _).trans ht', hsame'⟩
    · have hskip : (Turn.serve b :: turns).filter (· == .serve a) = turns.filter (· == .serve a) :=
        List.filter_cons_of_neg fun hbeq => by
          cases beq_iff_eq.mp hbeq
          exact hab rfl
      rw [hskip] at hs' ⊢
      obtain ⟨u, hu, hsched, hsame⟩ := exists_step_of_other_turn hb hab hs
      obtain ⟨t, t', ht, ht', hsame'⟩ := ih hrest hsched hs' (hsame.trans h)
      exact ⟨t, t', (steps_succ hu _).trans ht, ht', hsame'⟩

/-- Any number of steps has a next state. -/
theorem exists_steps (n : Nat) (s : State) : ∃ t, steps n s = .next t := by
  induction n generalizing s with
  | zero => exact ⟨s, rfl⟩
  | succ n ih =>
    obtain ⟨u, hu⟩ := everyStepHasANextState s
    obtain ⟨t, ht⟩ := ih u
    exact ⟨t, (steps_succ hu n).trans ht⟩

/-- R53: two runs of the same RX and TX turns end the same for every agent, since each ends like the run of
that agent's turns, of which both hold as many. -/
theorem sameFor_of_perm (a : Iface) {turns1 turns2 : List Turn} {t1 t2 : State}
    (hperm : turns1.Perm turns2) (hturns : ∀ turn ∈ turns1, turn = .serve .rx ∨ turn = .serve .tx)
    (h1 : steps turns1.length { s with schedule := turns1 } = .next t1)
    (h2 : steps turns2.length { s with schedule := turns2 } = .next t2) : SameFor a t1 t2 := by
  have hfilter : turns2.filter (· == .serve a) = turns1.filter (· == .serve a) := by
    rw [List.filter_beq, List.filter_beq, hperm.count_eq]
  have hstart (turns : List Turn) : SameFor a { s with schedule := turns }
      { s with schedule := turns1.filter (· == .serve a) } :=
    (SameFor.withSchedule a s turns).trans (SameFor.withSchedule a s _).symm
  obtain ⟨u1, v1, hu1, hv1, hsame1⟩ := exists_steps_sameFor a hturns rfl rfl (hstart turns1)
  obtain ⟨u2, v2, hu2, hv2, hsame2⟩ := exists_steps_sameFor a
    (fun turn hmem => hturns turn (hperm.mem_iff.mpr hmem)) rfl hfilter.symm (hstart turns2)
  rw [hfilter] at hv2
  obtain rfl : u1 = t1 := by simpa [hu1] using h1
  obtain rfl : u2 = t2 := by simpa [hu2] using h2
  obtain rfl : v1 = v2 := by simpa [hv1] using hv2
  exact hsame1.trans hsame2.symm

end

/-- Settles O59: the two runs end the same for each of the three agents, which is all that a run shows. -/
theorem rxAndTxStepsCommute : Obligations.RxAndTxStepsCommute := by
  intro s turns1 turns2 hperm hturns
  obtain ⟨t1, h1⟩ := exists_steps turns1.length { s with schedule := turns1 }
  obtain ⟨t2, h2⟩ := exists_steps turns2.length { s with schedule := turns2 }
  have hsame (a : Iface) := sameFor_of_perm a hperm hturns h1 h2
  refine ⟨t1, t2, h1, h2, ?_, fun a => (hsame a).pending⟩
  rw [State.observe, (hsame .ctrl).responses, (hsame .rx).responses, (hsame .tx).responses,
    (hsame .rx).rxOut rfl, (hsame .tx).txOut rfl, (hsame .ctrl).cfg, (hsame .rx).rbuf rfl, State.observe]

end Sys2Proof.Machine
end

section
/-! Idle fill that is all sentinels (70_reset_and_hazards.md R262), and the expansions of the
pseudo-instructions (30_encoding.md R96). -/

namespace Sys2Proof.Machine

/-- A body that is all sentinels splits into an all-sentinel header and all-sentinel data. -/
theorem splitBody_replicate {c : PacketFormat} (hsum : c.H + c.D = c.P) :
    splitBody c (List.replicate c.P c.S) = (List.replicate c.H c.S, List.replicate c.D c.S) := by
  rw [splitBody, ← hsum, List.replicate_add, List.take_left' List.length_replicate,
    List.drop_left' List.length_replicate]

/-- Settles O58: the fill is the shared form of one body, which is all sentinels. -/
theorem idleFillOfSentinelsFramesAPacket : Obligations.IdleFillOfSentinelsFramesAPacket := by
  intro s chunks hready hidle hstream
  have hshared : chunks.flatten = sharedStream s.cfg [List.replicate s.cfg.P s.cfg.S] := by
    rw [hstream, hidle, sharedStream_cons, List.replicate_succ, List.replicate_succ']
    rfl
  obtain ⟨_, hemits⟩ := sharedSentinelFramesAreAllEmitted s chunks _ hready
    (List.forall_mem_singleton.mpr List.length_replicate) hshared
  rwa [List.map_singleton, splitBody_replicate (sizes_sum_of_ready hready)] at hemits

/-! ### The pseudo-instructions -/

/-- R96: the operands of TX.SEND make up its body. -/
theorem txSend_operands (c : PacketFormat) (b : List Byte) :
    slice b 0 c.H = b.take c.H ∧ slice b c.H b.length = b.drop c.H := by
  refine ⟨rfl, ?_⟩
  rw [slice, ← List.length_drop, List.take_length]

/-- R96: with `H + D = P`, the operands of TX.SEND have the format's sizes just when the body has `P`
bytes. -/
theorem txSend_sizes_iff {c : PacketFormat} (hsum : c.H + c.D = c.P) (b : List Byte) :
    packetSizesMatch c (b.take c.H) (b.drop c.H) = true ↔ b.length = c.P := by
  rw [packetSizesMatch_iff, List.length_take, List.length_drop]
  omega

/-- R96: the pieces from a cut point on, for rising cut points, make up the stream from there on. -/
theorem piecesFrom_flatten (st : List Byte) {a : Nat} {cuts : List Nat}
    (hrising : (a :: cuts).Pairwise (· ≤ ·)) : (piecesFrom st a cuts).flatten = st.drop a := by
  induction cuts generalizing a with
  | nil => exact List.flatten_singleton
  | cons k cuts ih =>
    obtain ⟨hle, hrest⟩ := List.pairwise_cons.mp hrising
    have hak : a ≤ k := hle k List.mem_cons_self
    have hdrop : st.drop k = (st.drop a).drop (k - a) := by
      rw [List.drop_drop, Nat.add_sub_cancel' hak]
    rw [piecesFrom, List.flatten_cons, ih hrest, slice, hdrop, List.take_append_drop]

/-- R114: CFG.DEFAULT is an accepted CFG.LOAD, since PMAX is at least 64. -/
theorem exec_cfgDefault {s : State} (hctrl : s.active = .ctrl) (hparams : s.params.Legal) :
    exec cfgDefault s = .next { s with
      cfg := PacketFormat.default, rbuf := [], trace := s.trace ++ [.response .ctrl [0x00]] } := by
  obtain ⟨hmin, hmax, hsum⟩ := default_legal hparams
  exact cfgLoadInstallsAnAcceptedFormat 64 16 48 0x00 0xFF s hctrl hmin hmax hsum

/-- R96: TX.SEND of a body of `P` bytes writes the frame of that body. -/
theorem exec_txSend_of_length {s : State} {b : List Byte} (htx : s.active = .tx)
    (hsizes : packetSizesMatch s.cfg (b.take s.cfg.H) (b.drop s.cfg.H) = true) :
    ∃ t, exec (txSend s.cfg b) s = .next t ∧
      t.txBuffers = s.txBuffers ++ [[s.cfg.S] ++ b ++ [s.cfg.S]] := by
  obtain ⟨hhdr, hdat⟩ := txSend_operands s.cfg b
  have hexec := execTxFrameSelf_of_sizes htx hsizes
  have hframe : frame s.cfg (b.take s.cfg.H) (b.drop s.cfg.H) = [s.cfg.S] ++ b ++ [s.cfg.S] := by
    rw [frame_eq_cons, List.take_append_drop]
    rfl
  refine ⟨_, by rw [txSend, hhdr, hdat]; exact hexec, ?_⟩
  rw [txBuffers_of_execTxFrameSelf htx hsizes hexec, hframe]

/-- Settles O60: each expansion is a command, or commands, whose meaning is known. -/
theorem pseudoInstructionsExpandAsStated : Obligations.PseudoInstructionsExpandAsStated := by
  refine ⟨fun s => exec_cfgDefault, fun s b htx ⟨_, _, hsum⟩ hbody => ?_,
    fun s b htx ⟨_, _, hsum⟩ hbody => ?_, fun st cuts hrising _ => ?_⟩
  · exact exec_txSend_of_length htx ((txSend_sizes_iff hsum b).mpr hbody)
  · have hsizes := Bool.eq_false_iff.mpr (mt (txSend_sizes_iff hsum b).mp hbody)
    obtain ⟨hhdr, hdat⟩ := txSend_operands s.cfg b
    rw [txSend, hhdr, hdat]
    exact ⟨_, (execTxFrameSelf_of_wrong_sizes htx hsizes).trans
      (congrArg Host.Outcome.next (State.raise_invalidFrameSize_eq htx _ _))⟩
  · refine ⟨piecesFrom st 0 cuts, rfl, ?_⟩
    exact piecesFrom_flatten st (List.pairwise_cons.mpr ⟨fun k _ => Nat.zero_le k, hrising⟩)

end Sys2Proof.Machine
end
